-- ==== Sys2Proof/Word.lean ====
section
/-! DEFINITION. The word types of the block: bytes, operation words and CPU addresses.
Bit 0 is the least significant bit of every word (00_scope.md R12); all values are unsigned. -/

namespace Sys2Proof

/-- One byte: what `DIN` moves in, `RD` moves out and every register boundary byte is (20_memory.md R67). -/
abbrev Byte := BitVec 8

/-- An operation word: `op[11:8]`, `operand[7:0]` (30_encoding.md R90, R92). -/
abbrev OpWord := BitVec 12

/-- An address of the external CPU, and the width of its program counter (92_eei_decisions.md D21). -/
abbrev Addr := BitVec 16

end Sys2Proof
end

