-- ==== Sys2Proof/Machine/Calendar.lean ====
section
/-! DEFINITION. The seven calendar registers, the leap rule, the month lengths, the predicate `CalValid`
and `tick()` (10_state.md R21, R27; 44_rtc_calendar.md R233 to R240). -/

namespace Sys2Proof

/-- The calendar registers `x[0]` to `x[6]`, plain binary, the hour always in 24-hour form
(10_state.md R20 to R22); 8 bits each and 3 for the weekday (00_scope.md R9). -/
structure Calendar where
  sec : Byte
  min : Byte
  hr  : Byte
  wkd : BitVec 3
  day : Byte
  mon : Byte
  yr  : Byte
  deriving DecidableEq, Repr

/-- `is_leap(y)`: the mod-4 rule, no century exception (44_rtc_calendar.md R238). -/
def isLeap (y : Nat) : Bool := y % 4 == 0

/-- `dim(m, y)`, the length of month `m` in year `y`; a month outside 1 to 12 has 31 days
(44_rtc_calendar.md R239, decision D8; log entry 13). -/
def daysInMonth (m y : Nat) : Nat :=
  match m with
  | 2 => 28 + (isLeap y).toNat
  | 4 => 30
  | 6 => 30
  | 9 => 30
  | 11 => 30
  | _ => 31

/-- `CalValid` (10_state.md R27). -/
abbrev Calendar.Valid (c : Calendar) : Prop :=
  c.sec.toNat ≤ 59 ∧ c.min.toNat ≤ 59 ∧ c.hr.toNat ≤ 23 ∧
  1 ≤ c.wkd.toNat ∧ c.wkd.toNat ≤ 7 ∧
  1 ≤ c.mon.toNat ∧ c.mon.toNat ≤ 12 ∧
  c.yr.toNat ≤ 99 ∧
  1 ≤ c.day.toNat ∧ c.day.toNat ≤ daysInMonth c.mon.toNat c.yr.toNat

/-- A calendar that satisfies `CalValid`: what `EPOCH` and the host's time at `POR` are
(00_scope.md R8, 10_state.md R42, R43). -/
abbrev ValidCalendar := { c : Calendar // c.Valid }

/-- The register one up. The sum is formed as a natural number (44_rtc_calendar.md R233). -/
def succByte (v : Byte) : Byte := BitVec.ofNat 8 (v.toNat + 1)

/-- The weekday after `wkd` (44_rtc_calendar.md R236). -/
def nextWeekday (w : BitVec 3) : BitVec 3 := BitVec.ofNat 3 (w.toNat % 7 + 1)

/-- The year carry at the end of `tick()` (44_rtc_calendar.md R233, R237). -/
def Calendar.carryYear (c : Calendar) : Calendar :=
  if c.yr.toNat + 1 < 100 then { c with yr := succByte c.yr } else { c with yr := 0 }

/-- The month carry (44_rtc_calendar.md R233, R237). -/
def Calendar.carryMonth (c : Calendar) : Calendar :=
  if c.mon.toNat + 1 ≤ 12 then { c with mon := succByte c.mon }
  else Calendar.carryYear { c with mon := 1 }

/-- The day carry: the weekday always moves, the day of the month wraps at `dim(mon, yr)`
(44_rtc_calendar.md R233, R236, R237). -/
def Calendar.carryDay (c : Calendar) : Calendar :=
  let c1 := { c with wkd := nextWeekday c.wkd }
  if c1.day.toNat + 1 ≤ daysInMonth c1.mon.toNat c1.yr.toNat then { c1 with day := succByte c1.day }
  else Calendar.carryMonth { c1 with day := 1 }

/-- The hour carry (44_rtc_calendar.md R233, R235). -/
def Calendar.carryHour (c : Calendar) : Calendar :=
  if c.hr.toNat + 1 < 24 then { c with hr := succByte c.hr }
  else Calendar.carryDay { c with hr := 0 }

/-- The minute carry (44_rtc_calendar.md R233, R235). -/
def Calendar.carryMinute (c : Calendar) : Calendar :=
  if c.min.toNat + 1 < 60 then { c with min := succByte c.min }
  else Calendar.carryHour { c with min := 0 }

/-- `tick()`: one second on (44_rtc_calendar.md R233, R234). Outside `CalValid` the comparisons `<` and `≤`
are decision D8 (R240; log entry 13). -/
def Calendar.tick (c : Calendar) : Calendar :=
  if c.sec.toNat + 1 < 60 then { c with sec := succByte c.sec }
  else Calendar.carryMinute { c with sec := 0 }

end Sys2Proof
end

