-- ==== Sys2Proof/Config.lean ====
section
/-! DEFINITION. What an implementation fixes (00_scope.md R7 to R9), as one record a machine is built with,
and the one free value of the model, the byte `draw(8)` of 00_scope.md R13. -/

namespace Sys2Proof

/-- `TXCAP`, the capacity of the transaction buffer (00_scope.md R7). -/
abbrev txCap : Nat := 16

/-- `NV_SIZE`, the number of NVRAM bytes (00_scope.md R7). -/
abbrev nvSize : Nat := 64

/-- `NV_BASE`, the first NVRAM selector (00_scope.md R7). -/
abbrev nvBase : Nat := 0x20

/-- `HI_UNMAPPED`, the first selector that reads 0xFF (00_scope.md R7). -/
abbrev hiUnmapped : Nat := 0x60

/-- `INIT_SRC` (00_scope.md R8). -/
inductive InitSrc where
  | hostTime
  | fixedEpoch
  deriving DecidableEq, Repr

/-- `TXN_UNDERFLOW` (42_rtc_transactor.md R176, R179; 92_eei_decisions.md D13; log entry 4): whether `RD` without a
pointer and `WR` without data are refused, or run with `draw(8)` for every missing byte. -/
inductive Underflow where
  | refuse
  | draw
  deriving DecidableEq, Repr

/-- The parameters of 00_scope.md R8 and `TXN_UNDERFLOW`. They are held in the machine's state, no operation
writes them, and a statement about every state holds for every value of them (log entry 3). -/
structure Config where
  /-- `CPS`, CPU cycles in one calendar second. -/
  cps : Nat
  /-- `LOAD_VEC`. -/
  loadVec : Addr
  /-- `SAVE_VEC`. -/
  saveVec : Addr
  /-- `ROM_SIG_OFF`. -/
  romSigOff : Nat
  /-- `ROM_SIG`. -/
  romSig : List Byte
  /-- `DEV_FLAG_ADDR`, an address in 0x0000 to 0x00FF (41_hypercall_trap.md R153). -/
  devFlagAddr : Byte
  /-- `HOSTFS_DEV`. -/
  hostfsDev : Byte
  /-- `INIT_SRC`. -/
  initSrc : InitSrc
  /-- `EPOCH` (10_state.md R43). -/
  epoch : ValidCalendar
  /-- `RUN_INIT`. -/
  runInit : Bool
  /-- `H24_INIT`. -/
  h24Init : Bool
  /-- `VBATEN_INIT`. -/
  vbatenInit : Bool
  /-- `NV_INIT` (10_state.md R44). -/
  nvInit : Vector Byte nvSize
  /-- `PACING_DELAY`, host time, no effect on state (40_scheduler.md R129). -/
  pacingDelay : Nat
  /-- `ROM_MIN_SIZE` (70_reset_and_hazards.md R300). -/
  romMinSize : Nat
  /-- `TXN_UNDERFLOW`. -/
  txnUnderflow : Underflow
  deriving DecidableEq, Repr

/-- What 00_scope.md R8 asks of the parameters: `CPS` is positive and the two vectors are distinct
(that `EPOCH` is valid is in its type). -/
abbrev Config.Legal (c : Config) : Prop := 0 < c.cps ∧ c.loadVec ≠ c.saveVec

/-- FREE VALUE. The `k`-th byte `draw(8)` of a run (00_scope.md R13): nothing constrains it (log entries 4 and 5). -/
opaque Config.draw : Nat → Byte

end Sys2Proof
end

