-- ==== Sys2Proof/Machine/Parameters.lean ====
section
/-! DEFINITION. The parameter values `State.reset` is built with. The spec gives none of them (00_scope.md R8):
hints of R8 where there is one, else a choice (log entry 3). No statement rests on them. -/

namespace Sys2Proof

/-- DESIGN CHOICE (log entry 3): `EPOCH` is `00-01-01 00:00:00 w1`, the epoch 95_test_vectors.md P1 uses. -/
def Config.chosenEpoch : ValidCalendar :=
  ⟨{ sec := 0, min := 0, hr := 0, wkd := 1, day := 1, mon := 1, yr := 0 }, by decide⟩

/-- PRESUMED (the hints of R8) and DESIGN CHOICE values of the open parameters (log entries 3 and 4). -/
def Config.chosen : Config where
  cps := 8000000
  loadVec := 0xFFD5
  saveVec := 0xFFD8
  romSigOff := 0x3FF6
  romSig := [0x4D, 0x49, 0x53, 0x54]
  devFlagAddr := 0x8A
  hostfsDev := 0x08
  initSrc := .fixedEpoch
  epoch := Config.chosenEpoch
  runInit := false
  h24Init := true
  vbatenInit := false
  nvInit := Vector.replicate nvSize 0
  pacingDelay := 0
  romMinSize := 0x4000
  txnUnderflow := .draw

end Sys2Proof
end

