-- ==== Sys2Proof/Syntax.lean ====
section
/-! DEFINITION. The operations of the block and their sub-operations, one constructor per mnemonic of
spec/opcode_table.json (30_encoding.md R91, R93, R94). -/

namespace Sys2Proof

/-- One constructor per mnemonic of the opcode table. The operand of a sub-operation that covers a range of
selectors says which one: the selector for LOW and HIGH, the NVRAM offset `k = s - 0x20` for NV (20_memory.md R62). -/
inductive Instr where
  -- format OPW (30_encoding.md R91, R92)
  | idle
  | din (b : Byte)
  | rd
  | wr
  | step (n : Byte)
  | iter (n : Byte)
  | flush
  | rst
  | por
  -- format SEL, selected by buf[0] when RD or WR is performed (30_encoding.md R93)
  | rdSec
  | wrSec
  | rdMin
  | wrMin
  | rdHour
  | wrHour
  | rdWkday
  | wrWkday
  | rdDay
  | wrDay
  | rdMonth
  | wrMonth
  | rdYear
  | wrYear
  | rdLow (s : Byte)
  | wrLow (s : Byte)
  | rdNv (k : BitVec 6)
  | wrNv (k : BitVec 6)
  | rdHigh (s : Byte)
  | wrHigh (s : Byte)
  -- format PCM, selected by cpu.pc at the start of an ITER (30_encoding.md R94)
  | trapLoad
  | trapSave
  deriving DecidableEq, Repr

end Sys2Proof
end

