-- ==== Sys2Proof/WellFormed.lean ====
section
/-! DEFINITION. Which instructions are well formed: a LOW or HIGH sub-operation carries a selector of its own
region (20_memory.md R61). -/

namespace Sys2Proof

/-- The low unmapped region, 0x07 to 0x1F (20_memory.md R61). -/
def inLow (s : Byte) : Bool := decide (0x07 ≤ s.toNat ∧ s.toNat ≤ 0x1F)

/-- The high unmapped region, 0x60 to 0xFF (20_memory.md R61). -/
def inHigh (s : Byte) : Bool := decide (hiUnmapped ≤ s.toNat)

/-- Every operand of every other instruction is legal at every value (30_encoding.md R98, R99). -/
def Instr.wellFormed : Instr → Bool
  | .idle => true
  | .din _ => true
  | .rd => true
  | .wr => true
  | .step _ => true
  | .iter _ => true
  | .flush => true
  | .rst => true
  | .por => true
  | .rdSec => true
  | .wrSec => true
  | .rdMin => true
  | .wrMin => true
  | .rdHour => true
  | .wrHour => true
  | .rdWkday => true
  | .wrWkday => true
  | .rdDay => true
  | .wrDay => true
  | .rdMonth => true
  | .wrMonth => true
  | .rdYear => true
  | .wrYear => true
  | .rdLow s => inLow s
  | .wrLow s => inLow s
  | .rdNv _ => true
  | .wrNv _ => true
  | .rdHigh s => inHigh s
  | .wrHigh s => inHigh s
  | .trapLoad => true
  | .trapSave => true

end Sys2Proof
end

