-- ==== Sys2Proof/Decode.lean ====
section
/-! DEFINITION. The decoder of the three formats OPW, SEL and PCM (30_encoding.md R91 to R96), the encoder, the
expansions of the pseudo-operations (R113) and the host's `decodeTableWord`. -/

namespace Sys2Proof

/-- Which bus command a selector byte is decoded under (30_encoding.md R93). -/
inductive BusPort where
  | read
  | write
  deriving DecidableEq, Repr

/-- Bits in one of the three formats of 30_encoding.md. -/
inductive Code where
  /-- Format OPW, an operation word (R92). -/
  | opw (w : OpWord)
  /-- Format SEL, the selector byte under `RD` or `WR` (R93). -/
  | sel (p : BusPort) (s : Byte)
  /-- Format PCM, the program counter at the start of an `ITER` (R94). -/
  | pcm (pc : Addr)
  deriving DecidableEq, Repr

/-- The decoder's answer; it is total (30_encoding.md R96). -/
inductive Decoded where
  | op (i : Instr)
  /-- A reserved operation word (R96). -/
  | reserved (w : OpWord)
  /-- A program counter that selects no trap (R94). -/
  | noTrap (pc : Addr)
  deriving DecidableEq, Repr

/-- The operation code `w[11:8]` (30_encoding.md R92). -/
def opField (w : OpWord) : Nat := w.toNat / 256

/-- The operand `w[7:0]` (30_encoding.md R92). -/
def operandField (w : OpWord) : Byte := BitVec.ofNat 8 (w.toNat % 256)

/-- An operation without operand: a non-zero operand field is reserved (30_encoding.md R96). -/
def bareOp (w : OpWord) (i : Instr) : Decoded :=
  if operandField w = 0 then .op i else .reserved w

/-- Format OPW (30_encoding.md R91, R96). -/
def decodeOpw (w : OpWord) : Decoded :=
  match opField w with
  | 0x0 => bareOp w .idle
  | 0x1 => .op (.din (operandField w))
  | 0x2 => bareOp w .rd
  | 0x3 => bareOp w .wr
  | 0x4 => .op (.step (operandField w))
  | 0x5 => .op (.iter (operandField w))
  | 0x6 => bareOp w .flush
  | 0x7 => bareOp w .rst
  | 0x8 => bareOp w .por
  | _ => .reserved w

/-- A row of the SEL table: `s` matches when `s & mask == value` (30_encoding.md R93). -/
def selMatches (s value mask : Byte) : Bool := s &&& mask == value

/-- The NVRAM offset of a selector, `k = s - 0x20` (20_memory.md R62). -/
def nvOffset (s : Byte) : BitVec 6 := BitVec.ofNat 6 (s.toNat - nvBase)

/-- The selector of an NVRAM offset, `0x20 + k` (20_memory.md R62). -/
def nvSelector (k : BitVec 6) : Byte := BitVec.ofNat 8 (nvBase + k.toNat)

/-- Format SEL under `RD`, row by row (30_encoding.md R93). -/
def decodeReadSel (s : Byte) : Instr :=
  if selMatches s 0x00 0xFF then .rdSec
  else if selMatches s 0x01 0xFF then .rdMin
  else if selMatches s 0x02 0xFF then .rdHour
  else if selMatches s 0x03 0xFF then .rdWkday
  else if selMatches s 0x04 0xFF then .rdDay
  else if selMatches s 0x05 0xFF then .rdMonth
  else if selMatches s 0x06 0xFF then .rdYear
  else if selMatches s 0x07 0xFF then .rdLow s
  else if selMatches s 0x08 0xF8 then .rdLow s
  else if selMatches s 0x10 0xF0 then .rdLow s
  else if selMatches s 0x20 0xE0 then .rdNv (nvOffset s)
  else if selMatches s 0x40 0xE0 then .rdNv (nvOffset s)
  else .rdHigh s

/-- Format SEL under `WR`, row by row (30_encoding.md R93). -/
def decodeWriteSel (s : Byte) : Instr :=
  if selMatches s 0x00 0xFF then .wrSec
  else if selMatches s 0x01 0xFF then .wrMin
  else if selMatches s 0x02 0xFF then .wrHour
  else if selMatches s 0x03 0xFF then .wrWkday
  else if selMatches s 0x04 0xFF then .wrDay
  else if selMatches s 0x05 0xFF then .wrMonth
  else if selMatches s 0x06 0xFF then .wrYear
  else if selMatches s 0x07 0xFF then .wrLow s
  else if selMatches s 0x08 0xF8 then .wrLow s
  else if selMatches s 0x10 0xF0 then .wrLow s
  else if selMatches s 0x20 0xE0 then .wrNv (nvOffset s)
  else if selMatches s 0x40 0xE0 then .wrNv (nvOffset s)
  else .wrHigh s

/-- Format SEL (30_encoding.md R93). -/
def decodeSel : BusPort → Byte → Instr
  | .read, s => decodeReadSel s
  | .write, s => decodeWriteSel s

/-- Format PCM: equality on all 16 bits with one of the two vectors (30_encoding.md R94). -/
def decodePcm (c : Config) (pc : Addr) : Decoded :=
  if pc = c.loadVec then .op .trapLoad
  else if pc = c.saveVec then .op .trapSave
  else .noTrap pc

/-- The decoder, total over the three formats. -/
def decode (c : Config) : Code → Decoded
  | .opw w => decodeOpw w
  | .sel p s => .op (decodeSel p s)
  | .pcm pc => decodePcm c pc

/-- The operation word `op << 8 | operand` (30_encoding.md R92). -/
def opWord (op : Nat) (operand : Byte) : OpWord := BitVec.ofNat 12 (op * 256 + operand.toNat)

/-- The encoder (30_encoding.md R91, R93, R94). -/
def encode (c : Config) : Instr → Code
  | .idle => .opw (opWord 0x0 0)
  | .din b => .opw (opWord 0x1 b)
  | .rd => .opw (opWord 0x2 0)
  | .wr => .opw (opWord 0x3 0)
  | .step n => .opw (opWord 0x4 n)
  | .iter n => .opw (opWord 0x5 n)
  | .flush => .opw (opWord 0x6 0)
  | .rst => .opw (opWord 0x7 0)
  | .por => .opw (opWord 0x8 0)
  | .rdSec => .sel .read 0x00
  | .wrSec => .sel .write 0x00
  | .rdMin => .sel .read 0x01
  | .wrMin => .sel .write 0x01
  | .rdHour => .sel .read 0x02
  | .wrHour => .sel .write 0x02
  | .rdWkday => .sel .read 0x03
  | .wrWkday => .sel .write 0x03
  | .rdDay => .sel .read 0x04
  | .wrDay => .sel .write 0x04
  | .rdMonth => .sel .read 0x05
  | .wrMonth => .sel .write 0x05
  | .rdYear => .sel .read 0x06
  | .wrYear => .sel .write 0x06
  | .rdLow s => .sel .read s
  | .wrLow s => .sel .write s
  | .rdNv k => .sel .read (nvSelector k)
  | .wrNv k => .sel .write (nvSelector k)
  | .rdHigh s => .sel .read s
  | .wrHigh s => .sel .write s
  | .trapLoad => .pcm c.loadVec
  | .trapSave => .pcm c.saveVec

/-- `RDREG s` expands to `DIN s; RD` (30_encoding.md R113). -/
def expandRdReg (s : Byte) : List OpWord := [opWord 0x1 s, opWord 0x2 0]

/-- `WRREG s, d` expands to `DIN s; DIN d; WR` (30_encoding.md R113). -/
def expandWrReg (s d : Byte) : List OpWord := [opWord 0x1 s, opWord 0x1 d, opWord 0x3 0]

/-- `CYCLES m` expands to `STEP 1` repeated `m` times (30_encoding.md R113). -/
def expandCycles (m : Nat) : List OpWord := List.replicate m (opWord 0x4 1)

/-- `SECOND` expands to `CYCLES CPS` (30_encoding.md R113). -/
def expandSecond (c : Config) : List OpWord := expandCycles c.cps

/-- The instruction of a decoder's answer. -/
def Decoded.instr? : Decoded → Option Instr
  | .op i => some i
  | .reserved _ => none
  | .noTrap _ => none

/-- How the bits of an opcode-table row are laid out as code: a row of at most 8 bits is a selector byte, taken
under `RD` (the bits do not say which command they stand under, log entry 10); a wider one is an operation word
where its bits fit 12, and else a program counter. -/
def tableCode (nbits w : Nat) : Code :=
  if nbits ≤ 8 then .sel .read (BitVec.ofNat 8 w)
  else if w < 4096 then .opw (BitVec.ofNat 12 w)
  else .pcm (BitVec.ofNat 16 w)

/-- The instruction the decoder reads from a table row's bits; the trap vectors are those of `Config.chosen`
(log entry 10). Bits outside the row's width are refused. -/
def decodeTableWord (nbits w : Nat) : Option Instr :=
  if w < 2 ^ nbits then
    if w < 65536 then (decode Config.chosen (tableCode nbits w)).instr? else none
  else none

end Sys2Proof
end

