-- ==== Sys2Proof/Machine/Operands.lean ====
section
/-! DEFINITION. How the bytes of the register boundary are formed and taken apart: truncation, BCD, the bit fields of a
data byte, the 12-hour form, the address of a stacked byte (00_scope.md R12; 30_encoding.md R95, R100, R101;
43_rtc_registers.md R195, R197). -/

namespace Sys2Proof.Machine

/-- `trunc_8` (00_scope.md R12). -/
def trunc8 (v : Nat) : Byte := BitVec.ofNat 8 v

/-- `bcd_enc(v)` (30_encoding.md R100). -/
def bcdEnc (v : Nat) : Byte := trunc8 (((v / 10) <<< 4) ||| (v % 10))

/-- `bcd_dec(b)` (30_encoding.md R101). -/
def bcdDec (b : Byte) : Nat := (b.extractLsb' 4 4).toNat * 10 + (b.extractLsb' 0 4).toNat

/-- The bit `d[i]` of a data byte (30_encoding.md R95). -/
def bitOf (d : Byte) (i : Nat) : Bool := d.getLsbD i

/-- `d[6:0]` (30_encoding.md R95). -/
def low7 (d : Byte) : Byte := d &&& 0x7F

/-- `d[5:0]` (30_encoding.md R95). -/
def low6 (d : Byte) : Byte := d &&& 0x3F

/-- `d[4:0]` (30_encoding.md R95). -/
def low5 (d : Byte) : Byte := d &&& 0x1F

/-- `d[2:0]` (30_encoding.md R95). -/
def low3 (d : Byte) : BitVec 3 := d.extractLsb' 0 3

/-- The hour shown in 12-hour form, 1 to 12 (43_rtc_registers.md R195). -/
def hour12 (hr : Nat) : Nat := if hr % 12 = 0 then 12 else hr % 12

/-- The PM bit of an hour (43_rtc_registers.md R195). -/
def isPm (hr : Nat) : Bool := decide (12 ≤ hr)

/-- The 24-hour value of a data byte in 12-hour form (43_rtc_registers.md R197). -/
def hourFrom12 (d : Byte) : Nat :=
  let h := bcdDec (low5 d)
  let h := if h = 12 then 0 else h
  if bitOf d 5 then h + 12 else h

/-- The address of the `k`-th byte above the stack pointer, inside the stack page
(20_memory.md R64; decision D21, log entry 13). -/
def stackAddr (sp : Byte) (k : Nat) : Nat := 0x0100 + (sp.toNat + k) % 256

/-- The address after a little-endian return address, modulo 2^16 (41_hypercall_trap.md R157). -/
def afterReturnAddress (lo hi : Byte) : Addr := BitVec.ofNat 16 (((hi.toNat <<< 8) ||| lo.toNat) + 1)

end Sys2Proof.Machine
end

