-- ==== Sys2Proof/Machine/Memory.lean ====
section
/-! DEFINITION. Byte memories as lists of (address, byte) pairs in one canonical form: addresses strictly rising, no
entry equal to what an unlisted address reads as. NVRAM, CPU memory and the ROM image's bytes are held so
(10_state.md R32, R38; 20_memory.md R60). -/

namespace Sys2Proof

/-- A sparse byte memory. -/
abbrev Memory := List Host.Cell

/-- What an unlisted address reads as: DESIGN CHOICE 0 (log entry 8). -/
def Memory.unlisted : Byte := 0

/-- The byte at `a` (20_memory.md R67: every access is one byte). -/
def Memory.read : Memory → Nat → Byte
  | [], _ => Memory.unlisted
  | (b, w) :: rest, a => if a = b then w else Memory.read rest a

/-- `v` at `a` put in front of `rest`, left out where it is what an unlisted address reads as. -/
def Memory.put (a : Nat) (v : Byte) (rest : Memory) : Memory :=
  if v = Memory.unlisted then rest else (a, v) :: rest

/-- The memory with `v` stored at `a`, in canonical form again. -/
def Memory.write : Memory → Nat → Byte → Memory
  | [], a, v => Memory.put a v []
  | (b, w) :: rest, a, v =>
    if a < b then Memory.put a v ((b, w) :: rest)
    else if a = b then Memory.put a v rest
    else (b, w) :: Memory.write rest a v

/-- The canonical form from address `lo` on. -/
def Memory.wfFrom : Nat → Memory → Bool
  | _, [] => true
  | lo, (a, v) :: rest => decide (lo ≤ a) && (v != Memory.unlisted) && Memory.wfFrom (a + 1) rest

/-- The canonical form. -/
def Memory.wf (m : Memory) : Bool := Memory.wfFrom 0 m

/-- Every listed address lies below `n`. -/
def Memory.below (n : Nat) (m : Memory) : Bool := m.all fun c => decide (c.1 < n)

/-- The memory with the bytes of `bs` stored from address `a` on. -/
def Memory.writeAll (m : Memory) (a : Nat) : List Byte → Memory
  | [] => m
  | b :: bs => Memory.writeAll (m.write a b) (a + 1) bs

/-- The memory that holds the bytes of `bs` from address 0 on and nothing else. -/
def Memory.ofBytes (bs : List Byte) : Memory := Memory.writeAll [] 0 bs

/-- The memory with each pair stored in turn where its address lies below `n`. -/
def Memory.storeBelow (n : Nat) (m : Memory) : List Host.Cell → Memory
  | [] => m
  | (a, v) :: cs => Memory.storeBelow n (if a < n then m.write a v else m) cs

/-- The loaded primary ROM image: its size and its bytes (20_memory.md R60; 70_reset_and_hazards.md R300). -/
structure RomImage where
  size  : Nat
  bytes : Memory
  deriving DecidableEq, Repr

/-- An image of `size` bytes with the given bytes stored in turn; a pair past the size is no byte of it. -/
def RomImage.ofCells (size : Nat) (cells : List Host.Cell) : RomImage :=
  { size := size, bytes := Memory.storeBelow size [] cells }

/-- `n` bytes of a memory from `a` on. -/
def Memory.readBytes (m : Memory) (a : Nat) : Nat → List Byte
  | 0 => []
  | n + 1 => m.read a :: Memory.readBytes m (a + 1) n

/-- `RomRead(off, n)` (00_scope.md R13). A byte no image has loaded reads as any unlisted byte; an image as
70_reset_and_hazards.md R300 (1) asks leaves no such byte in the window the trap reads (log entry 9). -/
def RomImage.readBytes (r : RomImage) (off n : Nat) : List Byte := r.bytes.readBytes off n

/-- The image's bytes are in canonical form and lie inside it. -/
def RomImage.wf (r : RomImage) : Bool := r.bytes.wf && r.bytes.below r.size

end Sys2Proof
end

