-- ==== Sys2Proof/Machine/State.lean ====
section
/-! DEFINITION. The state of the machine: the block's own state (10_state.md R20), the external state it touches
(R38), the parameters (00_scope.md R8) and the model's own fields (the trace, the answers beside the current word,
the events put out, the counter of free bytes); the reasons a step can stop; the state after reset. -/

namespace Sys2Proof.Machine

/-- The external CPU's registers the block reads or writes (10_state.md R38). -/
structure Cpu where
  /-- `cpu.pc`. -/
  pc : Addr
  /-- `cpu.sp`. -/
  sp : Byte
  /-- `cpu.I`, the interrupt-disable flag. -/
  i : Bool
  deriving DecidableEq, Repr

/-- What a call of the CPU engine, a native routine or the CPU engine's own reset did to the external CPU: the new value
of each register it changed and its stores to CPU memory in order (40_scheduler.md R122; 41_hypercall_trap.md R156;
10_state.md R41). -/
structure CpuEffect where
  pc     : Option Addr := none
  sp     : Option Byte := none
  i      : Option Bool := none
  stores : List (Addr × Byte) := []
  deriving DecidableEq, Repr

/-- An RTC bus operation the executed instruction caused through the I/O layer (40_scheduler.md R122). -/
inductive BusOp where
  | din (b : Byte)
  | rd
  | wr
  deriving DecidableEq, Repr

/-- The collaborators' answers written beside an operation word (30_encoding.md R95, R112), each with the default
R112 gives it, or no change where R112 is silent (log entry 2), but for `hostTime` (log entry 19). -/
structure Answers where
  /-- The video stepper's answer for cycle 1, 2, ... of an `ITER`; a missing one is 0. -/
  frames : List Bool := []
  /-- The presentation's continue flag. -/
  cont : Bool := true
  /-- The RTC bus operations the executed instruction caused, in order. -/
  bus : List BusOp := []
  /-- What the executed instruction did to the CPU. -/
  cpu : CpuEffect := {}
  /-- What the native load or save did to the CPU, where the trap fires. -/
  native : CpuEffect := {}
  /-- What the interrupt-request entry did to the CPU, where the interrupt is asserted. -/
  irq : CpuEffect := {}
  /-- What the CPU engine's own reset did to the CPU, at `POR` and `RST` (10_state.md R41; log entry 18). -/
  cpuReset : CpuEffect := {}
  /-- The host's wall-clock time, for `POR` (10_state.md R42). DESIGN CHOICE: `Config.chosenEpoch` where the line gives
  none, since the spec gives no default (log entry 19). -/
  hostTime : ValidCalendar := Config.chosenEpoch
  /-- The host's saved NVRAM image, if there is one, for `POR` (10_state.md R44). -/
  nvImage : Option (Vector Byte nvSize) := none
  /-- A ROM image the host loaded before this operation, size and bytes (20_memory.md R75). -/
  newRom : Option (Nat × List Host.Cell) := none
  deriving DecidableEq, Repr

/-- One line of a trace: an operation word and the answers beside it (30_encoding.md R90, R112). -/
structure Line where
  word    : OpWord
  answers : Answers := {}
  deriving DecidableEq, Repr

/-- The two entries of the Hypercall Trap (41_hypercall_trap.md R151, R159). -/
inductive TrapEntry where
  | load
  | save
  deriving DecidableEq, Repr

/-- What the block puts out or whom it calls (log entry 11). -/
inductive Event where
  /-- The byte an `RD` puts on `dout` (42_rtc_transactor.md R175). -/
  | dout (v : Byte)
  /-- `Native.load()` or `Native.save()` (41_hypercall_trap.md R156). -/
  | native (e : TrapEntry)
  /-- `Cpu.step()` (40_scheduler.md R122). -/
  | cpuStep
  /-- `Video.step(1)` (R126). -/
  | videoStep
  /-- `Input.step(1)` (R125). -/
  | inputStep
  /-- `Storage.step(1)` (R125). -/
  | storageStep
  /-- The Scheduler's `STEP 1` to the RTC (R125). -/
  | rtcStep
  /-- `Presentation.update()` (R128). -/
  | refresh
  /-- The pacing delay (R129). -/
  | delay (d : Nat)
  /-- `Cpu.irq()` (R131). -/
  | irq
  /-- `Presentation.init` at `POR` (R135). -/
  | presentationInit
  /-- `Presentation.reset` at `RST` (R135). -/
  | presentationReset
  /-- `Presentation.end` after the iteration that halts (R135). -/
  | presentationEnd
  /-- The copy of NVRAM the persister takes at a `FLUSH` (43_rtc_registers.md R215). -/
  | persisted (image : Memory)
  deriving DecidableEq, Repr

/-- Reasons the machine stops with a fault: there are none. The block has no fault and no stuck outcome
(00_scope.md R14, 60_exceptions.md R260). -/
inductive Fault where
  deriving DecidableEq, Repr

/-- Reasons a step is refused (00_scope.md R14; 90_conflicts.md C9). Every refusal is safe: the model stops and
nothing is claimed of what follows. -/
inductive Refusal where
  /-- Raised by `exec` for an instruction without a meaning; no arm of this model raises it. Safe. -/
  | notModelled (mnemonic : String)
  /-- Raised by `RD` with `txlen = 0` where `TXN_UNDERFLOW` is `refuse` (42_rtc_transactor.md R176). Safe. -/
  | readWithoutPointer
  /-- Raised by `WR` with `txlen < 2` where `TXN_UNDERFLOW` is `refuse` (42_rtc_transactor.md R179). Safe. -/
  | writeWithoutData
  /-- Raised by `step` for a reserved operation word (30_encoding.md R96). Safe. -/
  | reservedOpWord (w : OpWord)
  /-- Raised by `ITER` once `halted` is 1 (40_scheduler.md R121). Safe. -/
  | iterAfterHalt
  deriving DecidableEq, Repr

/-- The state. -/
structure State where
  /-- The calendar registers (10_state.md R21). -/
  cal : Calendar
  /-- `run` (R30). -/
  run : Bool
  /-- `h24` (R30). -/
  h24 : Bool
  /-- `vbaten` (R30). -/
  vbaten : Bool
  /-- `nvram[0..63]` by offset (R32). -/
  nvram : Memory
  /-- `dirty` (R30). -/
  dirty : Bool
  /-- `buf[0..15]` (R33). -/
  buf : Vector Byte txCap
  /-- `txlen` (R33). -/
  txlen : Nat
  /-- `acc` (R34). -/
  acc : Nat
  /-- `mclk` (R35). -/
  mclk : Nat
  /-- `halted` (R36). -/
  halted : Bool
  /-- The external CPU's registers (R38). -/
  cpu : Cpu
  /-- The external CPU's memory (R38, 20_memory.md R64). -/
  mem : Memory
  /-- The loaded primary ROM image (R38). -/
  rom : RomImage
  /-- The implementation's parameters (00_scope.md R8, R11). -/
  cfg : Config
  /-- MODEL: how many free bytes have been drawn (log entry 4). -/
  draws : Nat
  /-- MODEL: the answers beside the word being performed (30_encoding.md R112). -/
  answers : Answers
  /-- MODEL: the operations still to be performed, in order (30_encoding.md R90). -/
  trace : List Line
  /-- MODEL: what the operation being performed put out so far, newest first. -/
  out : List Event
  deriving DecidableEq, Repr

/-- The machine right after reset: what `POR` leaves (10_state.md R41) under `Config.chosen`, no ROM image loaded,
nothing in CPU memory, an empty trace (log entries 1 and 3 to 9). -/
def State.reset : State where
  cal := Config.chosen.epoch.val
  run := Config.chosen.runInit
  h24 := Config.chosen.h24Init
  vbaten := Config.chosen.vbatenInit
  nvram := Memory.ofBytes Config.chosen.nvInit.toList
  dirty := false
  buf := Vector.replicate txCap 0
  txlen := 0
  acc := 0
  mclk := 0
  halted := false
  cpu := { pc := 0, sp := 0xFD, i := true }
  mem := []
  rom := { size := 0, bytes := [] }
  cfg := Config.chosen
  draws := 0
  answers := {}
  trace := []
  out := []

end Sys2Proof.Machine
end

