-- ==== Sys2Proof/Machine/Flags.lean ====
section
/-! DEFINITION. The one-bit state and signals of 10_state.md R30: how each control bit stands in the byte software
reads, and what each write does to it. -/

namespace Sys2Proof.Machine

/-- A flag at bit `i` of a byte being assembled (00_scope.md R12). -/
def flagAt (f : Bool) (i : Nat) : Nat := f.toNat <<< i

/-- `run`, set and cleared by bit 7 of a write to selector 0 (10_state.md R30, R31). -/
def State.setRun (s : State) (f : Bool) : State := { s with run := f }

/-- `h24`, the complement of the 12-hour mode bit of a write to selector 2 (10_state.md R30, R31). -/
def State.setMode12 (s : State) (f : Bool) : State := { s with h24 := !f }

/-- `vbaten`, set and cleared by bit 5 of a write to selector 3 (10_state.md R30; 90_conflicts.md C1). -/
def State.setVbaten (s : State) (f : Bool) : State := { s with vbaten := f }

/-- `dirty`, set by every NVRAM write (43_rtc_registers.md R214), cleared by `FLUSH` (R215). -/
def State.setDirty (s : State) (f : Bool) : State := { s with dirty := f }

/-- `halted`, set when the presentation reports shutdown (40_scheduler.md R128). -/
def State.halt (s : State) : State := { s with halted := true }

/-- The leap-year status bit, a function of `yr` (10_state.md R30). -/
def State.leap (s : State) : Bool := isLeap s.cal.yr.toNat

/-- The frame aggregate: the logical OR of the video stepper's answers (40_scheduler.md R126). -/
def frameOr (frame answer : Bool) : Bool := frame || answer

end Sys2Proof.Machine
end

