-- ==== Sys2Proof/Machine/Ops.lean ====
section
/-! DEFINITION. The named operations over the state: events, free bytes, the transaction buffer, the external CPU, the
trap entry and the synthesized return, the frame interrupt, the fetch of the next trace line. -/

namespace Sys2Proof.Machine

/-- The outcome of a meaning. -/
abbrev Result := Host.Outcome State Fault Refusal

/-- One part of an operation after another; the first stop ends it. -/
def andThen (r : Result) (f : State → Result) : Result :=
  match r with
  | .next s => f s
  | .fault e => .fault e
  | .refused e => .refused e

/-- Put an event out. -/
def State.emit (s : State) (e : Event) : State := { s with out := e :: s.out }

/-- `draw(8)` (00_scope.md R13): the next free byte (log entry 4). -/
def State.drawByte (s : State) : Byte × State := (Config.draw s.draws, { s with draws := s.draws + 1 })

/-! ## The transaction buffer (42_rtc_transactor.md) -/

/-- `DIN b`: append where capacity remains, else nothing (42_rtc_transactor.md R172, R173). -/
def State.push (s : State) (b : Byte) : State :=
  if s.txlen < txCap then { s with buf := s.buf.setIfInBounds s.txlen b, txlen := s.txlen + 1 } else s

/-- The end of a transaction: only `txlen` changes (42_rtc_transactor.md R181). -/
def State.endTxn (s : State) : State := { s with txlen := 0 }

/-- The selector a `WR` uses: `buf[0]`, or a free byte where the buffer holds none (42_rtc_transactor.md R178, R179). -/
def State.selector (s : State) : Byte × State := if 1 ≤ s.txlen then (s.buf[0], s) else s.drawByte

/-- The data a `WR` uses: `buf[1]`, or a free byte where the buffer holds none (42_rtc_transactor.md R178, R179). -/
def State.writeData (s : State) : Byte × State := if 2 ≤ s.txlen then (s.buf[1], s) else s.drawByte

/-- A read put out: `dout` is the value, the transaction ends (42_rtc_transactor.md R175). -/
def State.finishRead (s : State) (v : Byte) : State := (s.emit (.dout v)).endTxn

/-- A write performed: its data goes to `store`, the transaction ends (42_rtc_transactor.md R178). -/
def State.finishWrite (s : State) (store : Byte → State → State) : State :=
  (store s.writeData.1 s.writeData.2).endTxn

/-! ## The calendar's cycle step (44_rtc_calendar.md R230, R231) -/

/-- `STEP n`: nothing while stopped; else accumulate, and at most one tick (44_rtc_calendar.md R230, R231). -/
def State.stepRtc (s : State) (n : Nat) : State :=
  if s.run then
    if s.cfg.cps ≤ s.acc + n then { s with acc := s.acc + n - s.cfg.cps, cal := s.cal.tick }
    else { s with acc := s.acc + n }
  else s

/-! ## The external CPU -/

/-- CPU memory after stores in order. -/
def storeAll (m : Memory) : List (Addr × Byte) → Memory
  | [] => m
  | (a, v) :: rest => storeAll (m.write a.toNat v) rest

/-- The external CPU after a collaborator's call (40_scheduler.md R122; 41_hypercall_trap.md R156). -/
def State.applyCpu (s : State) (e : CpuEffect) : State :=
  { s with
    cpu := { pc := e.pc.getD s.cpu.pc, sp := e.sp.getD s.cpu.sp, i := e.i.getD s.cpu.i }
    mem := storeAll s.mem e.stores }

/-- `MemRead(addr, 1)` (00_scope.md R13). -/
def State.memRead (s : State) (a : Nat) : Byte := s.mem.read a

/-! ## The Hypercall Trap (41_hypercall_trap.md): entry and return -/

/-- The vector of an entry (41_hypercall_trap.md R151). -/
def State.vector (s : State) : TrapEntry → Addr
  | .load => s.cfg.loadVec
  | .save => s.cfg.saveVec

/-- Condition 1 for an entry: equality on all 16 bits (41_hypercall_trap.md R151). -/
def State.atVector (s : State) (e : TrapEntry) : Bool := s.cpu.pc == s.vector e

/-- Condition 2: the ROM identity bytes match (41_hypercall_trap.md R152). -/
def State.signatureMatches (s : State) : Bool :=
  s.rom.readBytes s.cfg.romSigOff s.cfg.romSig.length == s.cfg.romSig

/-- Condition 3: the zero-page flag selects the host-filesystem device (41_hypercall_trap.md R153). -/
def State.deviceSelected (s : State) : Bool := s.memRead s.cfg.devFlagAddr.toNat == s.cfg.hostfsDev

/-- The native collaborator's call (41_hypercall_trap.md R156). -/
def State.callNative (s : State) (e : TrapEntry) : State := (s.emit (.native e)).applyCpu s.answers.native

/-- `synth_return()`: the return from the trap (41_hypercall_trap.md R157). -/
def State.synthReturn (s : State) : State :=
  { s with
    cpu := { s.cpu with
      pc := afterReturnAddress (s.memRead (stackAddr s.cpu.sp 1)) (s.memRead (stackAddr s.cpu.sp 2))
      sp := BitVec.ofNat 8 ((s.cpu.sp.toNat + 2) % 256) } }

/-- Taking the trap: nothing is saved by the block; the native routine runs to completion, then the return is
synthesized (60_exceptions.md R265; 41_hypercall_trap.md R150). -/
def State.takeTrap (s : State) (e : TrapEntry) : State := (s.callNative e).synthReturn

/-- One entry of the trap: fires under the full conjunction, else does nothing (41_hypercall_trap.md R150, R154). -/
def State.trap (s : State) (e : TrapEntry) : State :=
  if s.atVector e && s.signatureMatches && s.deviceSelected then s.takeTrap e else s

/-- `trap_check()` (41_hypercall_trap.md R150). -/
def State.trapCheck (s : State) : State :=
  if (s.atVector .load || s.atVector .save) && s.signatureMatches && s.deviceSelected then
    if s.atVector .load then s.takeTrap .load else s.takeTrap .save
  else s

/-! ## The frame interrupt (40_scheduler.md R131; 60_exceptions.md R263, R266) -/

/-- Assert the frame interrupt unless the CPU's interrupt-disable flag is set; a masked one is lost
(40_scheduler.md R131). -/
def State.assertIrq (s : State) : State :=
  if s.cpu.i then s else (s.emit .irq).applyCpu s.answers.irq

/-! ## The next operation -/

/-- The ROM image after what the host loaded before this operation (20_memory.md R75). -/
def romAfter (r : RomImage) : Option (Nat × List Host.Cell) → RomImage
  | none => r
  | some (size, cells) => RomImage.ofCells size cells

/-- The state in which a trace line's operation is performed: the line is taken off the trace, its answers stand
beside the word, nothing is put out yet (30_encoding.md R90, R112). -/
def State.latch (s : State) (l : Line) (rest : List Line) : State :=
  { s with trace := rest, answers := l.answers, rom := romAfter s.rom l.answers.newRom, out := [] }

/-- The next operation: its decoding and the state it is performed in. With an empty trace there is no command on
either port, which is `IDLE` (30_encoding.md R97; log entry 1). -/
def State.fetch (s : State) : Decoded × State :=
  match s.trace with
  | [] => (.op .idle, { s with out := [] })
  | l :: rest => (decode s.cfg (.opw l.word), s.latch l rest)

/-- A trace line put in front of the trace. -/
def State.enqueue (s : State) (w : OpWord) : State := { s with trace := { word := w } :: s.trace }

/-- The state in which the next step performs the instruction of a table row's bits (log entry 10): an operation
word stands first in the trace; a selector stands in `buf[0]` with `RD` first in the trace; a program counter stands
in `cpu.pc`, the other two trap conditions hold, and `ITER 0` is first in the trace. -/
def State.placeCode (s : State) : Code → State
  | .opw w => s.enqueue w
  | .sel p v =>
    { s with buf := s.buf.setIfInBounds 0 v, txlen := match p with | .read => 1 | .write => 2 }.enqueue
      (match p with | .read => opWord 0x2 0 | .write => opWord 0x3 0)
  | .pcm pc =>
    { s with
      cpu := { s.cpu with pc := pc }
      rom := { size := max s.rom.size (s.cfg.romSigOff + s.cfg.romSig.length),
               bytes := s.rom.bytes.writeAll s.cfg.romSigOff s.cfg.romSig }
      mem := s.mem.write s.cfg.devFlagAddr.toNat s.cfg.hostfsDev }.enqueue (opWord 0x5 0)

end Sys2Proof.Machine
end

