-- ==== Sys2Proof/Machine/Reset.lean ====
section
/-! DEFINITION. The two reset events `POR` and `RST` (10_state.md R40 to R44; 70_reset_and_hazards.md R290, R291). -/

namespace Sys2Proof.Machine

/-- The calendar `POR` leaves: the host's time or the epoch, valid in both cases (10_state.md R41 to R43). -/
def State.initialCalendar (s : State) : ValidCalendar :=
  match s.cfg.initSrc with
  | .hostTime => s.answers.hostTime
  | .fixedEpoch => s.cfg.epoch

/-- The NVRAM bytes `POR` leaves: the host's saved image if there is one, else `NV_INIT` (10_state.md R44). -/
def State.initialNvram (s : State) : Vector Byte nvSize := s.answers.nvImage.getD s.cfg.nvInit

/-- The buffer after `POR`: 16 free bytes (10_state.md R41; log entry 5). -/
def freeBuffer (k : Nat) : Vector Byte txCap := Vector.ofFn fun i => Config.draw (k + i.val)

/-- `POR` (70_reset_and_hazards.md R290). The external CPU is as its engine's own reset left it, an answer beside the
word, unchanged where the line gives none (10_state.md R41, 70_reset_and_hazards.md R292; log entry 18). -/
def execPor (s : State) : Result :=
  .next
    { (s.emit .presentationInit).applyCpu s.answers.cpuReset with
      cal := s.initialCalendar.val
      run := s.cfg.runInit
      h24 := s.cfg.h24Init
      vbaten := s.cfg.vbatenInit
      nvram := Memory.ofBytes s.initialNvram.toList
      dirty := false
      buf := freeBuffer s.draws
      draws := s.draws + txCap
      txlen := 0
      acc := 0
      mclk := 0
      halted := false }

/-- `RST` (70_reset_and_hazards.md R291). The external CPU is as its engine's own reset left it, an answer beside the
word, unchanged where the line gives none (10_state.md R41; log entry 18). -/
def execRst (s : State) : Result :=
  .next { (s.emit .presentationReset).applyCpu s.answers.cpuReset with mclk := 0, txlen := 0 }

end Sys2Proof.Machine
end

