-- ==== Sys2Proof/Machine/Registers.lean ====
section
/-! DEFINITION. The RTC register boundary: what every selector reads and stores (43_rtc_registers.md R189 to R219), the
meanings of the sub-operations of `RD` and `WR`, and `FLUSH`. -/

namespace Sys2Proof.Machine

/-! ## What a selector reads -/

/-- `RD.SEC` (43_rtc_registers.md R190). -/
def readSec (s : State) : Byte := trunc8 ((bcdEnc s.cal.sec.toNat).toNat ||| flagAt s.run 7)

/-- `RD.MIN` (43_rtc_registers.md R192). -/
def readMin (s : State) : Byte := bcdEnc s.cal.min.toNat

/-- `RD.HOUR` in 24-hour mode (43_rtc_registers.md R194). -/
def readHour24 (s : State) : Byte := bcdEnc s.cal.hr.toNat

/-- `RD.HOUR` in 12-hour mode (43_rtc_registers.md R195). -/
def readHour12 (s : State) : Byte :=
  trunc8 (0x40 ||| flagAt (isPm s.cal.hr.toNat) 5 ||| (bcdEnc (hour12 s.cal.hr.toNat)).toNat)

/-- `RD.HOUR` (43_rtc_registers.md R194, R195). -/
def readHour (s : State) : Byte := if s.h24 then readHour24 s else readHour12 s

/-- `RD.WKDAY` (43_rtc_registers.md R198). -/
def readWkday (s : State) : Byte := trunc8 (s.cal.wkd.toNat ||| flagAt s.vbaten 3 ||| flagAt s.run 5)

/-- `RD.DAY` (43_rtc_registers.md R200). -/
def readDay (s : State) : Byte := bcdEnc s.cal.day.toNat

/-- `RD.MONTH` (43_rtc_registers.md R202). -/
def readMonth (s : State) : Byte := trunc8 ((bcdEnc s.cal.mon.toNat).toNat ||| flagAt s.leap 5)

/-- `RD.YEAR` (43_rtc_registers.md R204). -/
def readYear (s : State) : Byte := bcdEnc s.cal.yr.toNat

/-- `RD.NV` at offset `k` (43_rtc_registers.md R212). -/
def readNv (k : Nat) (s : State) : Byte := s.nvram.read k

/-- `RD.LOW` (43_rtc_registers.md R216). -/
def readLow (_ : State) : Byte := 0x00

/-- `RD.HIGH` (43_rtc_registers.md R218). -/
def readHigh (_ : State) : Byte := 0xFF

/-- `read_reg(s)` (43_rtc_registers.md R189). -/
def readReg (sel : Byte) (s : State) : Byte :=
  if sel.toNat = 0x00 then readSec s
  else if sel.toNat = 0x01 then readMin s
  else if sel.toNat = 0x02 then readHour s
  else if sel.toNat = 0x03 then readWkday s
  else if sel.toNat = 0x04 then readDay s
  else if sel.toNat = 0x05 then readMonth s
  else if sel.toNat = 0x06 then readYear s
  else if sel.toNat ≤ 0x1F then readLow s
  else if sel.toNat ≤ 0x5F then readNv (sel.toNat - nvBase) s
  else readHigh s

/-! ## What a write stores -/

/-- `WR.SEC` (43_rtc_registers.md R191). -/
def writeSec (d : Byte) (s : State) : State :=
  { s.setRun (bitOf d 7) with cal := { s.cal with sec := trunc8 (bcdDec (low7 d)) } }

/-- `WR.MIN` (43_rtc_registers.md R193). -/
def writeMin (d : Byte) (s : State) : State := { s with cal := { s.cal with min := trunc8 (bcdDec d) } }

/-- `WR.HOUR` with `d[6] = 0` (43_rtc_registers.md R196). -/
def writeHour24 (d : Byte) (s : State) : State :=
  { s.setMode12 false with cal := { s.cal with hr := trunc8 (bcdDec (low6 d)) } }

/-- `WR.HOUR` with `d[6] = 1` (43_rtc_registers.md R197). -/
def writeHour12 (d : Byte) (s : State) : State :=
  { s.setMode12 true with cal := { s.cal with hr := trunc8 (hourFrom12 d) } }

/-- `WR.HOUR` (43_rtc_registers.md R196, R197). -/
def writeHour (d : Byte) (s : State) : State := if bitOf d 6 then writeHour12 d s else writeHour24 d s

/-- `WR.WKDAY` (43_rtc_registers.md R199; 90_conflicts.md C1). -/
def writeWkday (d : Byte) (s : State) : State :=
  { s.setVbaten (bitOf d 5) with cal := { s.cal with wkd := low3 d } }

/-- `WR.DAY` (43_rtc_registers.md R201). -/
def writeDay (d : Byte) (s : State) : State := { s with cal := { s.cal with day := trunc8 (bcdDec d) } }

/-- `WR.MONTH` (43_rtc_registers.md R203). -/
def writeMonth (d : Byte) (s : State) : State := { s with cal := { s.cal with mon := trunc8 (bcdDec (low5 d)) } }

/-- `WR.YEAR` (43_rtc_registers.md R205). -/
def writeYear (d : Byte) (s : State) : State := { s with cal := { s.cal with yr := trunc8 (bcdDec d) } }

/-- `WR.NV` at offset `k` (43_rtc_registers.md R214). -/
def writeNv (k : Nat) (d : Byte) (s : State) : State := { s.setDirty true with nvram := s.nvram.write k d }

/-- `WR.LOW`: ignored (43_rtc_registers.md R217). -/
def writeLow (_ : Byte) (s : State) : State := s

/-- `WR.HIGH`: ignored (43_rtc_registers.md R219). -/
def writeHigh (_ : Byte) (s : State) : State := s

/-- `write_reg(s, d)` (43_rtc_registers.md R189). -/
def writeReg (sel d : Byte) (s : State) : State :=
  if sel.toNat = 0x00 then writeSec d s
  else if sel.toNat = 0x01 then writeMin d s
  else if sel.toNat = 0x02 then writeHour d s
  else if sel.toNat = 0x03 then writeWkday d s
  else if sel.toNat = 0x04 then writeDay d s
  else if sel.toNat = 0x05 then writeMonth d s
  else if sel.toNat = 0x06 then writeYear d s
  else if sel.toNat ≤ 0x1F then writeLow d s
  else if sel.toNat ≤ 0x5F then writeNv (sel.toNat - nvBase) d s
  else writeHigh d s

/-! ## The sub-operations -/

/-- `RD.SEC`: an `RD` at selector 0x00 (43_rtc_registers.md R190). -/
def execRdSec (s : State) : Result := .next (s.finishRead (readSec s))

/-- `WR.SEC`: a `WR` at selector 0x00 (43_rtc_registers.md R191). -/
def execWrSec (s : State) : Result := .next (s.finishWrite writeSec)

/-- `RD.MIN` (43_rtc_registers.md R192). -/
def execRdMin (s : State) : Result := .next (s.finishRead (readMin s))

/-- `WR.MIN` (43_rtc_registers.md R193). -/
def execWrMin (s : State) : Result := .next (s.finishWrite writeMin)

/-- `RD.HOUR` (43_rtc_registers.md R194, R195). -/
def execRdHour (s : State) : Result := .next (s.finishRead (readHour s))

/-- `WR.HOUR` (43_rtc_registers.md R196, R197). -/
def execWrHour (s : State) : Result := .next (s.finishWrite writeHour)

/-- `RD.WKDAY` (43_rtc_registers.md R198). -/
def execRdWkday (s : State) : Result := .next (s.finishRead (readWkday s))

/-- `WR.WKDAY` (43_rtc_registers.md R199). -/
def execWrWkday (s : State) : Result := .next (s.finishWrite writeWkday)

/-- `RD.DAY` (43_rtc_registers.md R200). -/
def execRdDay (s : State) : Result := .next (s.finishRead (readDay s))

/-- `WR.DAY` (43_rtc_registers.md R201). -/
def execWrDay (s : State) : Result := .next (s.finishWrite writeDay)

/-- `RD.MONTH` (43_rtc_registers.md R202). -/
def execRdMonth (s : State) : Result := .next (s.finishRead (readMonth s))

/-- `WR.MONTH` (43_rtc_registers.md R203). -/
def execWrMonth (s : State) : Result := .next (s.finishWrite writeMonth)

/-- `RD.YEAR` (43_rtc_registers.md R204). -/
def execRdYear (s : State) : Result := .next (s.finishRead (readYear s))

/-- `WR.YEAR` (43_rtc_registers.md R205). -/
def execWrYear (s : State) : Result := .next (s.finishWrite writeYear)

/-- `RD.LOW` at any selector of the low unmapped region (43_rtc_registers.md R216). -/
def execRdLow (_sel : Byte) (s : State) : Result := .next (s.finishRead (readLow s))

/-- `WR.LOW` at any selector of the low unmapped region (43_rtc_registers.md R217). -/
def execWrLow (_sel : Byte) (s : State) : Result := .next (s.finishWrite writeLow)

/-- `RD.NV` (43_rtc_registers.md R212). -/
def execRdNv (k : BitVec 6) (s : State) : Result := .next (s.finishRead (readNv k.toNat s))

/-- `WR.NV` (43_rtc_registers.md R214). -/
def execWrNv (k : BitVec 6) (s : State) : Result := .next (s.finishWrite (writeNv k.toNat))

/-- `RD.HIGH` at any selector of the high unmapped region (43_rtc_registers.md R218). -/
def execRdHigh (_sel : Byte) (s : State) : Result := .next (s.finishRead (readHigh s))

/-- `WR.HIGH` at any selector of the high unmapped region (43_rtc_registers.md R219). -/
def execWrHigh (_sel : Byte) (s : State) : Result := .next (s.finishWrite writeHigh)

/-- `FLUSH`: the persister takes a copy of NVRAM, `dirty` is cleared (43_rtc_registers.md R215). -/
def execFlush (s : State) : Result := .next ((s.emit (.persisted s.nvram)).setDirty false)

end Sys2Proof.Machine
end

