-- ==== Sys2Proof/Machine/Transactor.lean ====
section
/-! DEFINITION. The RTC Transactor: `DIN`, `RD` and `WR` (42_rtc_transactor.md R172 to R183), and `IDLE`. -/

namespace Sys2Proof.Machine

/-- `RD`: a read at `buf[0]`; without a pointer it is refused or puts out a free byte, by `TXN_UNDERFLOW`, and the
buffer stays empty (42_rtc_transactor.md R175 to R177). -/
def State.busRead (s : State) : Result :=
  if 1 ≤ s.txlen then .next (s.finishRead (readReg s.buf[0] s))
  else
    match s.cfg.txnUnderflow with
    | .refuse => .refused .readWithoutPointer
    | .draw => .next (s.drawByte.2.finishRead s.drawByte.1)

/-- The write of a `WR`, with the bytes the buffer holds and a free byte for each it lacks
(42_rtc_transactor.md R178, R179). -/
def State.performWrite (s : State) : State := s.selector.2.finishWrite (writeReg s.selector.1)

/-- `WR`: a write of `buf[1]` at `buf[0]`; with a byte missing it is refused or performed with free bytes, by
`TXN_UNDERFLOW` (42_rtc_transactor.md R178 to R180). -/
def State.busWrite (s : State) : Result :=
  if 2 ≤ s.txlen then .next s.performWrite
  else
    match s.cfg.txnUnderflow with
    | .refuse => .refused .writeWithoutData
    | .draw => .next s.performWrite

/-- A bus operation an instruction caused (40_scheduler.md R122). -/
def busOp : BusOp → State → Result
  | .din b, s => .next (s.push b)
  | .rd, s => s.busRead
  | .wr, s => s.busWrite

/-- Bus operations in the order the instruction caused them (40_scheduler.md R124). -/
def runBus : List BusOp → State → Result
  | [], s => .next s
  | o :: os, s => andThen (busOp o s) (runBus os)

/-- `IDLE`: no state changes, nothing is put out (30_encoding.md R97). -/
def execIdle (s : State) : Result := .next s

/-- `DIN b` (42_rtc_transactor.md R172, R173). -/
def execDin (b : Byte) (s : State) : Result := .next (s.push b)

/-- `RD` (42_rtc_transactor.md R175 to R177). -/
def execRd (s : State) : Result := s.busRead

/-- `WR` (42_rtc_transactor.md R178 to R180). -/
def execWr (s : State) : Result := s.busWrite

end Sys2Proof.Machine
end

