-- ==== Sys2Proof/Machine/Scheduler.lean ====
section
/-! DEFINITION. `STEP` and the Scheduler's iteration `ITER` (44_rtc_calendar.md R230, R231; 40_scheduler.md R120 to R137),
and the two sub-operations of the Hypercall Trap (41_hypercall_trap.md R150). -/

namespace Sys2Proof.Machine

/-- `STEP n`, `n` zero-extended from the operand (44_rtc_calendar.md R230, R231; 30_encoding.md R95). -/
def execStep (n : Byte) (s : State) : Result := .next (s.stepRtc n.toNat)

/-- `Cpu.step()`: the new CPU state, `n` cycles on the machine clock, then the instruction's bus operations in order
(40_scheduler.md R122 to R124). -/
def State.cpuStep (n : Nat) (s : State) : Result :=
  runBus s.answers.bus { (s.emit .cpuStep).applyCpu s.answers.cpu with mclk := s.mclk + n }

/-- One elapsed cycle: video, input, storage, then `STEP 1` to the RTC (40_scheduler.md R125). -/
def State.cycle (s : State) : State :=
  ((((s.emit .videoStep).emit .inputStep).emit .storageStep).emit .rtcStep).stepRtc 1

/-- The fan-out over `n` cycles with the video stepper's answers, and the frame aggregate so far
(40_scheduler.md R125 to R127). -/
def fanOut : Nat → List Bool → Bool → State → Bool × State
  | 0, _, frame, s => (frame, s)
  | n + 1, fs, frame, s => fanOut n fs.tail (frameOr frame (fs.headD false)) s.cycle

/-- The tail of the iteration: refresh, exit, delay, interrupt (40_scheduler.md R128 to R131). -/
def iterTail (frame : Bool) (s : State) : State :=
  if frame then
    let s1 := s.emit .refresh
    if s.answers.cont then (s1.emit (.delay s.cfg.pacingDelay)).assertIrq
    else s1.halt.emit .presentationEnd
  else s

/-- What follows the instruction: the elapsed cycles are the clock delta since `m0` (40_scheduler.md R123). -/
def iterRest (m0 : Nat) (s : State) : State :=
  let r := fanOut (s.mclk - m0) s.answers.frames false s
  iterTail r.1 r.2

/-- `ITER n`, `n` the elapsed cycles the CPU engine answers (40_scheduler.md R120, R121). -/
def execIter (n : Byte) (s : State) : Result :=
  if s.halted then .refused .iterAfterHalt
  else andThen (s.trapCheck.cpuStep n.toNat) fun s2 => .next (iterRest s.trapCheck.mclk s2)

/-- `TRAP.LOAD` (41_hypercall_trap.md R150 to R157). -/
def execTrapLoad (s : State) : Result := .next (s.trap .load)

/-- `TRAP.SAVE` (41_hypercall_trap.md R150 to R157). -/
def execTrapSave (s : State) : Result := .next (s.trap .save)

end Sys2Proof.Machine
end

