-- ==== Sys2Proof/Machine/Dispatch.lean ====
section
/-! DEFINITION. One arm per constructor of `Instr`, each one direct call of its meaning. -/

namespace Sys2Proof.Machine

def exec (i : Instr) (s : State) : Host.Outcome State Fault Refusal :=
  match i with
  -- format OPW
  | .idle => Sys2Proof.Machine.execIdle s
  | .din b => Sys2Proof.Machine.execDin b s
  | .rd => Sys2Proof.Machine.execRd s
  | .wr => Sys2Proof.Machine.execWr s
  | .step n => Sys2Proof.Machine.execStep n s
  | .iter n => Sys2Proof.Machine.execIter n s
  | .flush => Sys2Proof.Machine.execFlush s
  | .rst => Sys2Proof.Machine.execRst s
  | .por => Sys2Proof.Machine.execPor s
  -- format SEL
  | .rdSec => Sys2Proof.Machine.execRdSec s
  | .wrSec => Sys2Proof.Machine.execWrSec s
  | .rdMin => Sys2Proof.Machine.execRdMin s
  | .wrMin => Sys2Proof.Machine.execWrMin s
  | .rdHour => Sys2Proof.Machine.execRdHour s
  | .wrHour => Sys2Proof.Machine.execWrHour s
  | .rdWkday => Sys2Proof.Machine.execRdWkday s
  | .wrWkday => Sys2Proof.Machine.execWrWkday s
  | .rdDay => Sys2Proof.Machine.execRdDay s
  | .wrDay => Sys2Proof.Machine.execWrDay s
  | .rdMonth => Sys2Proof.Machine.execRdMonth s
  | .wrMonth => Sys2Proof.Machine.execWrMonth s
  | .rdYear => Sys2Proof.Machine.execRdYear s
  | .wrYear => Sys2Proof.Machine.execWrYear s
  | .rdLow v => Sys2Proof.Machine.execRdLow v s
  | .wrLow v => Sys2Proof.Machine.execWrLow v s
  | .rdNv k => Sys2Proof.Machine.execRdNv k s
  | .wrNv k => Sys2Proof.Machine.execWrNv k s
  | .rdHigh v => Sys2Proof.Machine.execRdHigh v s
  | .wrHigh v => Sys2Proof.Machine.execWrHigh v s
  -- format PCM
  | .trapLoad => Sys2Proof.Machine.execTrapLoad s
  | .trapSave => Sys2Proof.Machine.execTrapSave s

end Sys2Proof.Machine
end

