-- ==== Sys2Proof/Machine/Step.lean ====
section
/-! DEFINITION. One step: the next operation of the trace is decoded and performed (30_encoding.md R90, R96). -/

namespace Sys2Proof.Machine

/-- A step performs the next operation; a reserved word is refused (30_encoding.md R96). -/
def step (s : State) : Host.Outcome State Fault Refusal :=
  match s.fetch with
  | (.op i, t) => exec i t
  | (.reserved w, _) => .refused (.reservedOpWord w)
  | (.noTrap _, t) => .next t

/-- The state in which the next step performs the instruction of a table row's bits (log entry 10). -/
def State.withFetchWord (s : State) (nbits w : Nat) : State := s.placeCode (tableCode nbits w)

end Sys2Proof.Machine
end

