-- ==== Sys2Proof/Safety.lean ====
section
/-! DEFINITION. What the statements call a good state: the canonical form of the memories, the ranges the spec gives
its state, the boot requirements. -/

namespace Sys2Proof.Machine

/-- Every memory is canonical and lies in its space: NVRAM offsets 0 to 63, CPU addresses of 16 bits, the ROM image
inside its size (20_memory.md R60). -/
abbrev State.MemoriesOk (s : State) : Prop :=
  s.nvram.wf = true ∧ s.nvram.below nvSize = true ∧ s.mem.wf = true ∧ s.mem.below 65536 = true ∧ s.rom.wf = true

/-- The transaction buffer never exceeds 16 bytes (10_state.md R33). -/
abbrev State.BufferOk (s : State) : Prop := s.txlen ≤ txCap

/-- The structural invariant of the machine. -/
abbrev State.Inv (s : State) : Prop := s.MemoriesOk ∧ s.BufferOk

/-- The accumulator holds less than one second (10_state.md R34). -/
abbrev State.AccOk (s : State) : Prop := s.acc < s.cfg.cps

/-- What 70_reset_and_hazards.md R300 (1) asks of the ROM image before the first iteration. -/
abbrev State.RomReady (s : State) : Prop :=
  s.cfg.romMinSize ≤ s.rom.size ∧ s.cfg.romSigOff + s.cfg.romSig.length ≤ s.cfg.romMinSize

end Sys2Proof.Machine
end

