-- ==== Sys2Proof/Certificates/Slice0/Obligations.lean ====
section
/-! DEFINITION. The statements about the machine, each from the rules of spec/ its docstring names, and the few
functions they are stated with. A statement marked DERIVED rests on a rule the spec marks as its own decision or
inference, or on a choice of the model; its docstring names the decision or the log entry. -/

open Sys2Proof Sys2Proof.Machine

namespace Sys2Proof.Slice0

/-- Tens digit times ten plus units digit of a byte. -/
def digits (d : Byte) : Nat := d.toNat / 16 * 10 + d.toNat % 16

/-- Tens in the high nibble, units in the low nibble, as a byte. -/
def bcdByte (v : Nat) : Byte := BitVec.ofNat 8 (v / 10 * 16 + v % 10)

/-- The state after a read that puts out `v`: the transaction has ended and nothing else has changed. -/
def afterRead (s : State) (v : Byte) : State := { s with txlen := 0, out := .dout v :: s.out }

/-- The state after a write that changes the calendar to `c` and no flag: the transaction has ended. -/
def afterWrite (s : State) (c : Calendar) : State := { s with cal := c, txlen := 0 }

/-- The state in which the missing data byte of a write has been taken from the free bytes. -/
def withDrawnData (s : State) : State :=
  { s with buf := s.buf.setIfInBounds 1 (Config.draw s.draws), txlen := 2, draws := s.draws + 1 }

/-- The ten write sub-operations. -/
def isWriteSub : Instr → Bool
  | .wrSec | .wrMin | .wrHour | .wrWkday | .wrDay | .wrMonth | .wrYear | .wrLow _ | .wrNv _ | .wrHigh _ => true
  | _ => false

/-- Seconds in 100 years of the calendar (44_rtc_calendar.md R244). -/
def periodSeconds : Nat := (75 * 365 + 25 * 366) * 86400

/-- `n` calls of `tick()`. -/
def ticks (n : Nat) (c : Calendar) : Calendar := Calendar.tick^[n] c

/-- The OR of the first `n` answers of the video stepper; a missing answer is 0. -/
def frameOf (n : Nat) (answers : List Bool) : Bool := (answers.take n).any id

/-- Operations performed one after another; the first stop ends it. -/
def execAll : List Instr → State → Host.Outcome State Fault Refusal
  | [], s => .next s
  | i :: is, s =>
    match exec i s with
    | .next t => execAll is t
    | .fault r => .fault r
    | .refused r => .refused r

/-- The operation a bus operation of an instruction is (40_scheduler.md R122). -/
def busInstr : BusOp → Instr
  | .din b => .din b
  | .rd => .rd
  | .wr => .wr

/-- The external CPU and its memory after a collaborator's effect: each register it names at its new value, its stores
done one byte after another (log entry 2). -/
def afterEffect (e : CpuEffect) (s : State) : State :=
  { s with
    cpu := { pc := e.pc.getD s.cpu.pc, sp := e.sp.getD s.cpu.sp, i := e.i.getD s.cpu.i }
    mem := e.stores.foldl (fun m st => m.write st.1.toNat st.2) s.mem }

/-- The stores of the collaborators an operation calls. -/
def storesOf (a : Answers) : Instr → List (Addr × Byte)
  | .iter _ => a.native.stores ++ a.cpu.stores ++ a.irq.stores
  | .trapLoad | .trapSave => a.native.stores
  | .por | .rst => a.cpuReset.stores
  | _ => []

/-- The month lengths, written out for months 1 to 12 (44_rtc_calendar.md R239); any other month has 31 days
(decision D8). -/
def monthLength (m y : Nat) : Nat :=
  if 1 ≤ m then
    ([31, if y % 4 = 0 then 29 else 28, 31, 30, 31, 30, 31, 31, 30, 31, 30, 31] : List Nat).getD (m - 1) 31
  else 31

/-- Whether bus operations meet a buffer they have a meaning on, from a buffer of the given length: `RD` needs one
byte, `WR` two (42_rtc_transactor.md R170). -/
def admitted : Nat → List BusOp → Bool
  | _, [] => true
  | k, .din _ :: os => admitted (if k < 16 then k + 1 else k) os
  | k, .rd :: os => decide (1 ≤ k) && admitted 0 os
  | k, .wr :: os => decide (2 ≤ k) && admitted 0 os

/-- The events of one elapsed cycle, newest first. -/
def cycleEvents : List Event := [.rtcStep, .storageStep, .inputStep, .videoStep]

/-- The rows of the selector table: value, mask, and the sub-operation under each command
(30_encoding.md R93). -/
def selectorRows : List (Byte × Byte × (Byte → Instr) × (Byte → Instr)) :=
  [ (0x00, 0xFF, fun _ => .rdSec, fun _ => .wrSec),
    (0x01, 0xFF, fun _ => .rdMin, fun _ => .wrMin),
    (0x02, 0xFF, fun _ => .rdHour, fun _ => .wrHour),
    (0x03, 0xFF, fun _ => .rdWkday, fun _ => .wrWkday),
    (0x04, 0xFF, fun _ => .rdDay, fun _ => .wrDay),
    (0x05, 0xFF, fun _ => .rdMonth, fun _ => .wrMonth),
    (0x06, 0xFF, fun _ => .rdYear, fun _ => .wrYear),
    (0x07, 0xFF, Instr.rdLow, Instr.wrLow),
    (0x08, 0xF8, Instr.rdLow, Instr.wrLow),
    (0x10, 0xF0, Instr.rdLow, Instr.wrLow),
    (0x20, 0xE0, fun s => .rdNv (BitVec.ofNat 6 (s.toNat - 0x20)), fun s => .wrNv (BitVec.ofNat 6 (s.toNat - 0x20))),
    (0x40, 0xE0, fun s => .rdNv (BitVec.ofNat 6 (s.toNat - 0x20)), fun s => .wrNv (BitVec.ofNat 6 (s.toNat - 0x20))),
    (0x60, 0xE0, Instr.rdHigh, Instr.wrHigh),
    (0x80, 0x80, Instr.rdHigh, Instr.wrHigh) ]

/-- The hour table: the byte in 24-hour mode and the byte in 12-hour mode for each hour 0 to 23
(43_rtc_registers.md R209). -/
def hourTable : List (Byte × Byte) :=
  [ (0x00, 0x52), (0x01, 0x41), (0x02, 0x42), (0x03, 0x43), (0x04, 0x44), (0x05, 0x45), (0x06, 0x46), (0x07, 0x47),
    (0x08, 0x48), (0x09, 0x49), (0x10, 0x50), (0x11, 0x51), (0x12, 0x72), (0x13, 0x61), (0x14, 0x62), (0x15, 0x63),
    (0x16, 0x64), (0x17, 0x65), (0x18, 0x66), (0x19, 0x67), (0x20, 0x68), (0x21, 0x69), (0x22, 0x70), (0x23, 0x71) ]

/-- The three conditions of the trap at one entry, in the spec's words (41_hypercall_trap.md R151 to R153). -/
abbrev trapConditions (s : State) (vector : Addr) : Prop :=
  s.cpu.pc = vector ∧ s.rom.readBytes s.cfg.romSigOff s.cfg.romSig.length = s.cfg.romSig ∧
  s.mem.read s.cfg.devFlagAddr.toNat = s.cfg.hostfsDev

/-- The native routine the trap check of an iteration calls, if it fires: the entry whose conditions all hold. -/
def nativeCalls (s : State) : List Event :=
  if trapConditions s s.cfg.loadVec then [.native .load]
  else if trapConditions s s.cfg.saveVec then [.native .save]
  else []

/-- A subroutine return on the CPU as it stands in `u` (41_hypercall_trap.md R157). -/
def returned (u : State) : State :=
  { u with
    cpu := { u.cpu with
      pc := BitVec.ofNat 16 ((u.mem.read (0x0100 + (u.cpu.sp.toNat + 2) % 256)).toNat * 256 +
              (u.mem.read (0x0100 + (u.cpu.sp.toNat + 1) % 256)).toNat + 1)
      sp := BitVec.ofNat 8 (u.cpu.sp.toNat + 2) } }

/-- The date after the last second of a day, and the weekday after: the clock at 00:00:00. -/
def nextDay (c : Calendar) : Calendar :=
  let w : BitVec 3 := BitVec.ofNat 3 (c.wkd.toNat % 7 + 1)
  if c.day.toNat < daysInMonth c.mon.toNat c.yr.toNat then { c with wkd := w, day := c.day + 1 }
  else if c.mon.toNat < 12 then { c with wkd := w, day := 1, mon := c.mon + 1 }
  else if c.yr.toNat < 99 then { c with wkd := w, day := 1, mon := 1, yr := c.yr + 1 }
  else { c with wkd := w, day := 1, mon := 1, yr := 0 }

end Sys2Proof.Slice0

open Sys2Proof.Slice0

/-! ## Encoding -/

/-- A few operation words and selectors, written out from the tables of 30_encoding.md. -/
def Obligations.SampleWordsDecode : Prop :=
  ∀ c : Config,
    decode c (.opw 0x000) = .op .idle ∧ decode c (.opw 0x1A5) = .op (.din 0xA5) ∧ decode c (.opw 0x200) = .op .rd ∧
    decode c (.opw 0x4FF) = .op (.step 0xFF) ∧ decode c (.opw 0x502) = .op (.iter 2) ∧
    decode c (.opw 0x800) = .op .por ∧ decode c (.opw 0x301) = .reserved 0x301 ∧
    decode c (.opw 0x900) = .reserved 0x900 ∧
    decode c (.sel .read 0x5F) = .op (.rdNv 63) ∧ decode c (.sel .write 0x60) = .op (.wrHigh 0x60)

/-- DERIVED (decisions D1, D34 for the operation word). Decoding and encoding agree in both directions, over every
format, and a word is reserved exactly where 30_encoding.md R96 says so. -/
def Obligations.DecodeEncodeAgree : Prop :=
  ∀ c : Config, c.Legal →
    (∀ i : Instr, i.wellFormed = true → decode c (encode c i) = .op i) ∧
    (∀ (k : Code) (i : Instr), decode c k = .op i → i.wellFormed = true ∧ encode c i = k) ∧
    (∀ w : OpWord, decode c (.opw w) = .reserved w ↔
      9 ≤ w.toNat / 256 ∨ (w.toNat / 256 ∈ [0, 2, 3, 6, 7, 8] ∧ w.toNat % 256 ≠ 0)) ∧
    (∀ pc : Addr, decode c (.pcm pc) = .noTrap pc ↔ pc ≠ c.loadVec ∧ pc ≠ c.saveVec)

/-- Every selector matches exactly one row of the table of 30_encoding.md R93, and decodes to that row's
sub-operation under each command. -/
def Obligations.SelectorTableDecodes : Prop :=
  ∀ (c : Config) (s : Byte),
    (selectorRows.filter fun r => s &&& r.2.1 == r.1).length = 1 ∧
    ∀ r ∈ selectorRows, s &&& r.2.1 = r.1 →
      decode c (.sel .read s) = .op (r.2.2.1 s) ∧ decode c (.sel .write s) = .op (r.2.2.2 s)

/-! ## The Transactor -/

/-- `DIN b` (R172, R173): appended while fewer than 16 bytes are held, dropped without any change else. -/
def Obligations.DinAppendsOrDrops : Prop :=
  ∀ (b : Byte) (s : State),
    (s.txlen < 16 → ∃ t, exec (.din b) s = .next t ∧ t = { s with buf := t.buf, txlen := s.txlen + 1 } ∧
      ∀ k (h : k < 16), t.buf[k] = if k = s.txlen then b else s.buf[k]) ∧
    (16 ≤ s.txlen → exec (.din b) s = .next s)

/-- `RD` with a pointer (R175, R177), whatever else the buffer holds: the sub-operation of `buf[0]` is performed;
its value is put out, `txlen` becomes 0 and nothing else changes. -/
def Obligations.RdReadsAtPointer : Prop :=
  ∀ (c : Config) (s : State) (i : Instr), 1 ≤ s.txlen → decode c (.sel .read s.buf[0]) = .op i →
    exec .rd s = exec i s ∧ ∃ v, exec .rd s = .next (afterRead s v)

/-- DERIVED (decision D13, log entry 4). `RD` with an empty buffer: refused, or a free byte put out with the buffer still
empty, by `TXN_UNDERFLOW`. -/
def Obligations.RdWithoutPointer : Prop :=
  ∀ s : State, s.txlen = 0 →
    (s.cfg.txnUnderflow = .refuse → exec .rd s = .refused .readWithoutPointer) ∧
    (s.cfg.txnUnderflow = .draw →
      exec .rd s = .next { s with draws := s.draws + 1, out := .dout (Config.draw s.draws) :: s.out })

/-- `WR` with two bytes or more (R178): the sub-operation of `buf[0]` is performed on `buf[1]` and the transaction ends,
whatever further bytes the buffer holds; nothing is changed but what a register write can change. -/
def Obligations.WrWritesAtPointer : Prop :=
  ∀ (c : Config) (s : State) (i : Instr), 2 ≤ s.txlen → decode c (.sel .write s.buf[0]) = .op i →
    exec .wr s = exec i s ∧
    ∃ t, exec .wr s = .next t ∧ t.txlen = 0 ∧
      t = { s with cal := t.cal, run := t.run, h24 := t.h24, vbaten := t.vbaten, nvram := t.nvram, dirty := t.dirty,
                   txlen := 0 }

/-- DERIVED (decision D13, log entry 4). `WR` with fewer than two bytes: refused, or performed with a free byte for each
missing byte, by `TXN_UNDERFLOW`: with one byte held the selector is `buf[0]`, with none a free byte, and the write is
that of the sub-operation the selector decodes to, which takes a free byte for its data (WriteSubsDrawMissingData). -/
def Obligations.WrWithoutData : Prop :=
  ∀ s : State, s.txlen < 2 →
    (s.cfg.txnUnderflow = .refuse → exec .wr s = .refused .writeWithoutData) ∧
    (s.cfg.txnUnderflow = .draw →
      ∃ t, exec .wr s = .next t ∧ t.txlen = 0 ∧ t.buf = s.buf ∧
        t.draws = s.draws + (2 - s.txlen) ∧
        (s.txlen = 1 → ∀ (c : Config) (i : Instr), decode c (.sel .write s.buf[0]) = .op i → exec i s = .next t) ∧
        (s.txlen = 0 → ∀ (c : Config) (i : Instr), decode c (.sel .write (Config.draw s.draws)) = .op i →
          exec i { s with draws := s.draws + 1 } = .next t))

/-! ## What the registers read -/

/-- `RD.SEC` (R190): BCD of `sec` with `run` at bit 7; up to 59 bit 7 is `run` alone, from 80 on it is set whatever `run`
is (from 160 on the BCD byte is truncated; R191 lets no write store more than 85). -/
def Obligations.RdSecReturns : Prop :=
  ∀ s : State, ∃ v, exec .rdSec s = .next (afterRead s v) ∧
    v = BitVec.ofNat 8 ((bcdByte s.cal.sec.toNat).toNat ||| (s.run.toNat * 128)) ∧
    (s.cal.sec.toNat ≤ 59 → v.getLsbD 7 = s.run ∧ digits (v &&& 0x7F) = s.cal.sec.toNat) ∧
    (80 ≤ s.cal.sec.toNat → s.cal.sec.toNat ≤ 159 → v.getLsbD 7 = true)

/-- `RD.MIN`, `RD.DAY` and `RD.YEAR` (R192, R200, R204): the BCD byte of the register. -/
def Obligations.RdMinDayYearReturn : Prop :=
  ∀ s : State,
    exec .rdMin s = .next (afterRead s (bcdByte s.cal.min.toNat)) ∧
    exec .rdDay s = .next (afterRead s (bcdByte s.cal.day.toNat)) ∧
    exec .rdYear s = .next (afterRead s (bcdByte s.cal.yr.toNat))

/-- `RD.HOUR` in 24-hour mode (R194) and in 12-hour mode (R195). -/
def Obligations.RdHourReturns : Prop :=
  ∀ s : State,
    (s.h24 = true → ∃ v, exec .rdHour s = .next (afterRead s v) ∧ v = bcdByte s.cal.hr.toNat ∧
      (s.cal.hr.toNat ≤ 23 → v.getLsbD 7 = false ∧ v.getLsbD 6 = false)) ∧
    (s.h24 = false → ∃ v, exec .rdHour s = .next (afterRead s v) ∧
      v.getLsbD 7 = false ∧ v.getLsbD 6 = true ∧ v.getLsbD 5 = decide (12 ≤ s.cal.hr.toNat) ∧
      v &&& 0x1F = bcdByte (if s.cal.hr.toNat % 12 = 0 then 12 else s.cal.hr.toNat % 12))

/-- DERIVED (R209 is an inference from R194 and R195). The whole hour table. -/
def Obligations.RdHourTable : Prop :=
  ∀ (s : State) (row : Byte × Byte), hourTable[s.cal.hr.toNat]? = some row →
    exec .rdHour s = .next (afterRead s (if s.h24 then row.1 else row.2))

/-- `RD.WKDAY` (R198): weekday at bits 2:0, `vbaten` at bit 3, `run` at bit 5, the other bits 0. -/
def Obligations.RdWkdayReturns : Prop :=
  ∀ s : State, ∃ v, exec .rdWkday s = .next (afterRead s v) ∧
    v.toNat = s.cal.wkd.toNat + s.vbaten.toNat * 8 + s.run.toNat * 32 ∧
    v.getLsbD 4 = false ∧ v.getLsbD 6 = false ∧ v.getLsbD 7 = false

/-- `RD.MONTH` (R202): BCD of the month with the leap flag of the year at bit 5. -/
def Obligations.RdMonthReturns : Prop :=
  ∀ s : State, ∃ v, exec .rdMonth s = .next (afterRead s v) ∧
    v = BitVec.ofNat 8 ((bcdByte s.cal.mon.toNat).toNat ||| (if s.cal.yr.toNat % 4 = 0 then 32 else 0)) ∧
    (1 ≤ s.cal.mon.toNat → s.cal.mon.toNat ≤ 12 →
      v.getLsbD 5 = decide (s.cal.yr.toNat % 4 = 0) ∧ digits (v &&& 0x1F) = s.cal.mon.toNat ∧
      v.getLsbD 6 = false ∧ v.getLsbD 7 = false)

/-- `RD.NV` (R212), `RD.LOW` (R216), `RD.HIGH` (R218). -/
def Obligations.RdNvLowHighReturn : Prop :=
  ∀ s : State,
    (∀ k : BitVec 6, exec (.rdNv k) s = .next (afterRead s (s.nvram.read k.toNat))) ∧
    (∀ v : Byte, exec (.rdLow v) s = .next (afterRead s 0x00)) ∧
    (∀ v : Byte, exec (.rdHigh v) s = .next (afterRead s 0xFF))

/-! ## What the registers store -/

/-- `WR.SEC` (R191): bit 7 goes to `run`, the low seven bits as BCD to `sec`, at most 85, and nothing else changes, not
`acc`; with bit 7 clear a later `STEP` has no effect. -/
def Obligations.WrSecStores : Prop :=
  ∀ (s : State) (d : Byte), 2 ≤ s.txlen → s.buf[1] = d → ∃ t, exec .wrSec s = .next t ∧
    t = { afterWrite s { s.cal with sec := BitVec.ofNat 8 (digits (d &&& 0x7F)) } with run := d.getLsbD 7 } ∧
    t.cal.sec.toNat = digits (d &&& 0x7F) ∧ t.cal.sec.toNat ≤ 85 ∧
    (d.getLsbD 7 = false → ∀ n : Byte, exec (.step n) t = .next t)

/-- DERIVED (decision D7). `WR.MIN`, `WR.DAY` and `WR.YEAR` decode the whole byte; `WR.MONTH` the low five bits. -/
def Obligations.WrMinDayMonthYearStore : Prop :=
  ∀ (s : State) (d : Byte), 2 ≤ s.txlen → s.buf[1] = d →
    exec .wrMin s = .next (afterWrite s { s.cal with min := BitVec.ofNat 8 (digits d) }) ∧
    exec .wrDay s = .next (afterWrite s { s.cal with day := BitVec.ofNat 8 (digits d) }) ∧
    exec .wrMonth s = .next (afterWrite s { s.cal with mon := BitVec.ofNat 8 (digits (d &&& 0x1F)) }) ∧
    exec .wrYear s = .next (afterWrite s { s.cal with yr := BitVec.ofNat 8 (digits d) })

/-- DERIVED (decision D7). `WR.HOUR`: bit 6 clear stores the low six bits in 24-hour form; bit 6 set stores the low five
bits with 12 taken as 0 and bit 5 adding 12; the mode goes to `h24`. -/
def Obligations.WrHourStores : Prop :=
  ∀ (s : State) (d : Byte) (h : Nat), 2 ≤ s.txlen → s.buf[1] = d →
    (d.getLsbD 6 = false → h = digits (d &&& 0x3F) →
      exec .wrHour s = .next { afterWrite s { s.cal with hr := BitVec.ofNat 8 h } with h24 := true }) ∧
    (d.getLsbD 6 = true →
      h = (if digits (d &&& 0x1F) = 12 then 0 else digits (d &&& 0x1F)) + (if d.getLsbD 5 then 12 else 0) →
      exec .wrHour s = .next { afterWrite s { s.cal with hr := BitVec.ofNat 8 h } with h24 := false })

/-- DERIVED (decision D16, 90_conflicts.md C1). `WR.WKDAY` stores bits 2:0 in `wkd` and bit 5 in `vbaten`; `run` and
bit 3 are left alone. -/
def Obligations.WrWkdayStores : Prop :=
  ∀ (s : State) (d : Byte), 2 ≤ s.txlen → s.buf[1] = d → ∃ t, exec .wrWkday s = .next t ∧
    t = { afterWrite s { s.cal with wkd := t.cal.wkd } with vbaten := d.getLsbD 5 } ∧
    t.cal.wkd.toNat = d.toNat % 8

/-- DERIVED (decision D12). `WR.NV` stores the raw byte at its offset and at no other, and sets `dirty` whatever the byte
was; the memory keeps its canonical form. -/
def Obligations.WrNvStores : Prop :=
  ∀ (k : BitVec 6) (s : State) (d : Byte), s.nvram.wf = true → 2 ≤ s.txlen → s.buf[1] = d →
    ∃ t, exec (.wrNv k) s = .next t ∧ t = { afterWrite s s.cal with nvram := t.nvram, dirty := true } ∧
      (∀ j, t.nvram.read j = if j = k.toNat then d else s.nvram.read j) ∧ t.nvram.wf = true

/-- `WR.LOW` (R217) and `WR.HIGH` (R219): nothing is written, `dirty` is not set, the transaction ends. -/
def Obligations.WrLowHighIgnored : Prop :=
  ∀ (v : Byte) (s : State), 2 ≤ s.txlen →
    exec (.wrLow v) s = .next (afterWrite s s.cal) ∧ exec (.wrHigh v) s = .next (afterWrite s s.cal)

/-- DERIVED (decision D13, log entries 4 and 10). A write sub-operation that finds fewer than two bytes in the buffer takes
a free byte for its data and does with it what it does with a data byte held; the buffer's bytes stay. -/
def Obligations.WriteSubsDrawMissingData : Prop :=
  ∀ (i : Instr) (s : State), isWriteSub i = true → s.txlen < 2 →
    ∃ t, exec i (withDrawnData s) = .next t ∧ exec i s = .next { t with buf := s.buf }

/-! ## Properties of the register boundary -/

/-- DERIVED (R102 is an inference, R100 and R101 rest on decision D5). BCD round trips. -/
def Obligations.BcdRoundTrips : Prop :=
  (∀ v : Nat, v ≤ 99 → bcdDec (bcdEnc v) = v) ∧
  (∀ b : Byte, b.toNat / 16 ≤ 9 → b.toNat % 16 ≤ 9 → bcdEnc (bcdDec b) = b) ∧
  (∀ b : Byte, bcdDec b ≤ 165)

/-- DERIVED (R208 is an inference). For every hour of the day and either mode, writing back what `RD.HOUR` returns
stores the same hour and the same mode. -/
def Obligations.HourReadWriteSymmetric : Prop :=
  ∀ s t u : State, ∀ v : Byte, s.cal.hr.toNat ≤ 23 → exec .rdHour s = .next (afterRead s v) →
    t.txlen = 2 → t.buf[1] = v → exec .wrHour t = .next u → u.cal.hr = s.cal.hr ∧ u.h24 = s.h24

/-- DERIVED (R211 is an inference). What a read of the same selector right after a write returns: the data itself
where its digits are decimal (seconds, minutes, day, year) or it stands in the hour table; the month with the year's
leap flag; the weekday byte as 90_conflicts.md C1 makes it. -/
def Obligations.ReadAfterWrite : Prop :=
  ∀ (s : State) (d : Byte), 2 ≤ s.txlen → s.buf[1] = d →
    (d.toNat % 16 ≤ 9 → ∃ t, execAll [.wrSec, .rdSec] s = .next t ∧ t.out = .dout d :: s.out) ∧
    (d.toNat % 16 ≤ 9 → d.toNat / 16 ≤ 9 →
      (∃ t, execAll [.wrMin, .rdMin] s = .next t ∧ t.out = .dout d :: s.out) ∧
      (∃ t, execAll [.wrDay, .rdDay] s = .next t ∧ t.out = .dout d :: s.out) ∧
      (∃ t, execAll [.wrYear, .rdYear] s = .next t ∧ t.out = .dout d :: s.out)) ∧
    ((∃ row ∈ hourTable, d = row.1 ∨ d = row.2) →
      ∃ t, execAll [.wrHour, .rdHour] s = .next t ∧ t.out = .dout d :: s.out) ∧
    (d.toNat % 16 ≤ 9 → ∃ t, execAll [.wrMonth, .rdMonth] s = .next t ∧
      t.out = .dout ((d &&& 0x1F) ||| (if s.cal.yr.toNat % 4 = 0 then 0x20 else 0)) :: s.out) ∧
    (∃ t, execAll [.wrWkday, .rdWkday] s = .next t ∧
      t.out = .dout ((d &&& 0x07) ||| (if d.getLsbD 5 then 0x08 else 0) ||| (if s.run then 0x20 else 0)) :: s.out)

/-- NVRAM (R213): a byte written at selector 0x20+k is the byte read there, no other offset changes, and `STEP`, `RST`
and a write at any other selector leave NVRAM alone. -/
def Obligations.NvramRoundTrip : Prop :=
  ∀ s : State, s.nvram.wf = true → s.txlen = 0 →
    (∀ (k : BitVec 6) (d : Byte), ∃ t,
      execAll [.din (0x20 + k.zeroExtend 8), .din d, .wr, .din (0x20 + k.zeroExtend 8), .rd] s = .next t ∧
      t.out = .dout d :: s.out ∧ ∀ j, j ≠ k.toNat → t.nvram.read j = s.nvram.read j) ∧
    (∀ (v d : Byte), v.toNat < 0x20 ∨ 0x60 ≤ v.toNat →
      ∃ t, execAll [.din v, .din d, .wr] s = .next t ∧ t.nvram = s.nvram) ∧
    (∀ n : Byte, ∃ t, exec (.step n) s = .next t ∧ t.nvram = s.nvram) ∧
    (∃ t, exec .rst s = .next t ∧ t.nvram = s.nvram)

/-! ## FLUSH, resets, IDLE -/

/-- DERIVED (decisions D1, D12, D17, D27; log entry 18 for the external CPU). `IDLE` changes nothing; `FLUSH` hands NVRAM
over and clears `dirty`; `RST` clears `mclk` and `txlen` and calls the presentation's reset, and the external CPU is as
its engine's own reset left it; nothing else changes. -/
def Obligations.IdleFlushRst : Prop :=
  ∀ s : State,
    exec .idle s = .next s ∧
    exec .flush s = .next { s with dirty := false, out := .persisted s.nvram :: s.out } ∧
    exec .rst s =
      .next { afterEffect s.answers.cpuReset s with mclk := 0, txlen := 0, out := .presentationReset :: s.out }

/-- DERIVED (decisions D17, D18, D27, D30; log entry 5 for the buffer, 18 for the external CPU). `POR` sets every piece
of the block's state, the calendar to a valid one; the external CPU is as its engine's own reset left it; the ROM image
and the parameters are left alone. -/
def Obligations.PorInitialises : Prop :=
  ∀ s : State, ∃ t, exec .por s = .next t ∧
    t.cal.Valid ∧ (s.cfg.initSrc = .hostTime → t.cal = s.answers.hostTime.val) ∧
    (s.cfg.initSrc = .fixedEpoch → t.cal = s.cfg.epoch.val) ∧
    t.nvram.wf = true ∧ t.nvram.below 64 = true ∧
    (∀ k (h : k < 64), t.nvram.read k = (s.answers.nvImage.getD s.cfg.nvInit)[k]) ∧
    (∀ k (h : k < 16), t.buf[k] = Config.draw (s.draws + k)) ∧
    t = { afterEffect s.answers.cpuReset s with
                 cal := t.cal, run := s.cfg.runInit, h24 := s.cfg.h24Init, vbaten := s.cfg.vbatenInit,
                 nvram := t.nvram, dirty := false, buf := t.buf, txlen := 0, acc := 0, mclk := 0, halted := false,
                 draws := s.draws + 16, out := .presentationInit :: s.out }

/-- DERIVED (log entries 3 to 9: the parameter values, the external CPU's registers and the buffer's bytes in
`State.reset` are the model's). The state after reset is what `POR` leaves, the buffer's free bytes apart, and is a
good state. -/
def Obligations.ResetIsPowerOn : Prop :=
  (∃ t, exec .por State.reset = .next t ∧
    { t with buf := State.reset.buf, draws := State.reset.draws, out := State.reset.out } = State.reset) ∧
  State.reset.Inv ∧ State.reset.AccOk ∧ State.reset.cal.Valid ∧ State.reset.cfg.Legal ∧ State.reset.mclk = 0

/-! ## The Calendar -/

/-- DERIVED (decisions D9, D10). `STEP n`: nothing while stopped; else the accumulator takes the cycles, and one second
is taken off it with one tick where it reaches `CPS`. -/
def Obligations.StepAccumulates : Prop :=
  ∀ (n : Byte) (s : State), ∃ t, exec (.step n) s = .next t ∧
    (s.run = false → t = s) ∧
    (s.run = true → s.acc + n.toNat < s.cfg.cps → t = { s with acc := s.acc + n.toNat }) ∧
    (s.run = true → s.cfg.cps ≤ s.acc + n.toNat →
      t = { s with acc := s.acc + n.toNat - s.cfg.cps, cal := s.cal.tick })

/-- DERIVED (R232 is an inference; decisions D9, D10). The number of ticks and the final accumulator of any sequence of
`STEP` operations of at most one second each. -/
def Obligations.StepCounting : Prop :=
  ∀ (ns : List Byte) (s : State), s.run = true → s.acc < s.cfg.cps → (∀ n ∈ ns, n.toNat ≤ s.cfg.cps) →
    execAll (ns.map Instr.step) s = .next
      { s with acc := (s.acc + (ns.map BitVec.toNat).sum) % s.cfg.cps,
               cal := ticks ((s.acc + (ns.map BitVec.toNat).sum) / s.cfg.cps) s.cal }

/-- DERIVED (R232 and R113 are inferences or decisions). `SECOND` moves the calendar by exactly one second and leaves the
accumulator as it was. -/
def Obligations.SecondIsOneTick : Prop :=
  ∀ s : State, s.run = true → s.acc < s.cfg.cps →
    execAll (List.replicate s.cfg.cps (.step 1)) s = .next { s with cal := s.cal.tick }

/-- Seconds, minutes and hours (R234, R235) in a valid calendar: each goes up by one or wraps to 0, and the carry into
the next happens on the wrap and on no other tick. -/
def Obligations.TimeOfDayCarries : Prop :=
  ∀ c : Calendar, c.Valid →
    (c.sec.toNat < 59 → c.tick = { c with sec := c.sec + 1 }) ∧
    (c.sec.toNat = 59 → c.tick.sec = 0 ∧
      (c.min.toNat < 59 → c.tick = { c with sec := 0, min := c.min + 1 }) ∧
      (c.min.toNat = 59 → c.tick.min = 0 ∧
        (c.hr.toNat < 23 → c.tick = { c with sec := 0, min := 0, hr := c.hr + 1 }) ∧
        (c.hr.toNat = 23 → c.tick.hr = 0 ∧ c.tick.wkd ≠ c.wkd ∧ c.tick.day ≠ c.day)))

/-- Weekday (R236): it moves on a day carry and on no other tick, by `(wkd mod 7) + 1`, 7 to 1 and 0 to 1, whatever the
date is; adding 1 and taking 1 for a result above 7 gives the same. -/
def Obligations.WeekdayMovesOnDayCarry : Prop :=
  ∀ c : Calendar, c.sec.toNat ≤ 59 → c.min.toNat ≤ 59 → c.hr.toNat ≤ 23 →
    (¬ (c.sec.toNat = 59 ∧ c.min.toNat = 59 ∧ c.hr.toNat = 23) → c.tick.wkd = c.wkd) ∧
    (c.sec.toNat = 59 → c.min.toNat = 59 → c.hr.toNat = 23 →
      c.tick.wkd.toNat = c.wkd.toNat % 7 + 1 ∧
      c.tick.wkd.toNat = (if 7 < c.wkd.toNat + 1 then 1 else c.wkd.toNat + 1))

/-- Day, month and year (R237) in a valid calendar at 23:59:59. -/
def Obligations.DateCarries : Prop :=
  ∀ c : Calendar, c.Valid → c.sec.toNat = 59 → c.min.toNat = 59 → c.hr.toNat = 23 →
    (c.day.toNat < daysInMonth c.mon.toNat c.yr.toNat →
      c.tick.day = c.day + 1 ∧ c.tick.mon = c.mon ∧ c.tick.yr = c.yr) ∧
    (c.day.toNat = daysInMonth c.mon.toNat c.yr.toNat → c.tick.day = 1 ∧
      (c.mon.toNat < 12 → c.tick.mon = c.mon + 1 ∧ c.tick.yr = c.yr) ∧
      (c.mon.toNat = 12 → c.tick.mon = 1 ∧
        (c.yr.toNat < 99 → c.tick.yr = c.yr + 1) ∧ (c.yr.toNat = 99 → c.tick.yr = 0)))

/-- DERIVED (R239 takes the eleven other lengths from the ordinary calendar, and 31 for a month outside 1 to 12 is decision
D8). The month lengths written out, months outside 1 to 12 included: they are the model's `dim`, and at 23:59:59 the day
goes up by one below the month's length and to 1 from it on, with a month carry. -/
def Obligations.MonthLengths : Prop :=
  (∀ m y : Nat, daysInMonth m y = monthLength m y) ∧
  ∀ c : Calendar, c.sec.toNat = 59 → c.min.toNat = 59 → c.hr.toNat = 23 →
    (c.day.toNat < monthLength c.mon.toNat c.yr.toNat →
      c.tick.day.toNat = c.day.toNat + 1 ∧ c.tick.mon = c.mon ∧ c.tick.yr = c.yr) ∧
    (monthLength c.mon.toNat c.yr.toNat ≤ c.day.toNat → c.tick.day = 1 ∧
      c.tick.mon.toNat = (if c.mon.toNat < 12 then c.mon.toNat + 1 else 1))

/-- The last second of a year (R242): 00:00:00 of January 1 of the next year, the weekday one on (7 to 1), year 99 to
year 0, in a leap year and in any other. -/
def Obligations.YearEndCarries : Prop :=
  ∀ c : Calendar, c.sec = 59 → c.min = 59 → c.hr = 23 → c.day = 31 → c.mon = 12 → c.yr.toNat ≤ 99 →
    c.tick.sec = 0 ∧ c.tick.min = 0 ∧ c.tick.hr = 0 ∧ c.tick.day = 1 ∧ c.tick.mon = 1 ∧
    c.tick.yr.toNat = (c.yr.toNat + 1) % 100 ∧ c.tick.wkd.toNat = c.wkd.toNat % 7 + 1

/-- DERIVED (R243 gives it as the source's property, with R239, which rests on decision D8). February 28,
23:59:59 steps to March 1 in a year not divisible by 4 and to February 29 in one that is; February 29, 23:59:59 steps to March 1 in a leap year. -/
def Obligations.FebruaryIsLeapAware : Prop :=
  ∀ c : Calendar, c.sec = 59 → c.min = 59 → c.hr = 23 → c.mon = 2 →
    (c.day = 28 → c.yr.toNat % 4 ≠ 0 → c.tick.day = 1 ∧ c.tick.mon = 3) ∧
    (c.day = 28 → c.yr.toNat % 4 = 0 → c.tick.day = 29 ∧ c.tick.mon = 2) ∧
    (c.day = 29 → c.yr.toNat % 4 = 0 → c.tick.day = 1 ∧ c.tick.mon = 3) ∧
    c.tick.sec = 0 ∧ c.tick.min = 0 ∧ c.tick.hr = 0 ∧ c.tick.yr = c.yr

/-- DERIVED (R241 is an inference). `tick()` keeps `CalValid`. -/
def Obligations.TickKeepsCalValid : Prop := ∀ c : Calendar, c.Valid → c.tick.Valid

/-- DERIVED (an inference from R233; month lengths as in R239, decision D8). From any time of day of a valid calendar,
86400 ticks later it is the same time on the next day. -/
def Obligations.DayIs86400Ticks : Prop := ∀ c : Calendar, c.Valid → ticks 86400 c = nextDay c

/-- DERIVED (R244 is an inference). The calendar other than the weekday has period 3,155,760,000 seconds, after which the
weekday differs; the whole calendar has period seven times that. -/
def Obligations.CalendarPeriod : Prop :=
  ∀ c : Calendar, c.Valid →
    (∃ w : BitVec 3, ticks periodSeconds c = { c with wkd := w } ∧ w ≠ c.wkd) ∧
    ticks (7 * periodSeconds) c = c

/-! ## The Hypercall Trap -/

/-- The gate (R154): where any of the three conditions fails, the trap does nothing, at either entry and in an
iteration's check. -/
def Obligations.TrapNeedsAllThree : Prop :=
  ∀ s : State,
    (¬ trapConditions s s.cfg.loadVec → exec .trapLoad s = .next s) ∧
    (¬ trapConditions s s.cfg.saveVec → exec .trapSave s = .next s) ∧
    (¬ trapConditions s s.cfg.loadVec → ¬ trapConditions s s.cfg.saveVec → s.trapCheck = s)

/-- DERIVED (decisions D20, D21, D31). Where all three hold, the native routine of the entry is called, and then the
subroutine return is synthesized on the CPU as the routine left it; memory changes by the routine's stores only. -/
def Obligations.TrapFires : Prop :=
  ∀ s : State,
    (trapConditions s s.cfg.loadVec →
      exec .trapLoad s =
        .next (returned (afterEffect s.answers.native { s with out := .native .load :: s.out }))) ∧
    (trapConditions s s.cfg.saveVec →
      exec .trapSave s =
        .next (returned (afterEffect s.answers.native { s with out := .native .save :: s.out }))) ∧
    (s.answers.native = {} → trapConditions s s.cfg.loadVec →
      ∃ t, exec .trapLoad s = .next t ∧ t.mem = s.mem ∧
        t = { returned s with out := .native .load :: s.out })

/-- DERIVED (R155, R94; two distinct vectors are a requirement of R8). The iteration's trap check is the sub-operation the
program counter decodes to, performed once, or nothing. -/
def Obligations.TrapCheckIsDecodedEntry : Prop :=
  ∀ s : State, s.cfg.Legal →
    (∀ i, decode s.cfg (.pcm s.cpu.pc) = .op i → exec i s = .next s.trapCheck) ∧
    (decode s.cfg (.pcm s.cpu.pc) = .noTrap s.cpu.pc → s.trapCheck = s)

/-! ## The Scheduler's iteration -/

/-- DERIVED (decision D25). An `ITER` after the loop has terminated is refused. -/
def Obligations.IterRefusedOnceHalted : Prop :=
  ∀ (n : Byte) (s : State), s.halted = true → exec (.iter n) s = .refused .iterAfterHalt

/-- DERIVED (decisions D13, D21, D29; log entry 2). `ITER n` completes unless halted or refused on the bus: with
`TXN_UNDERFLOW` draw always, with refuse exactly where the instruction's bus operations each meet the bytes they need;
the machine clock takes `n` cycles, and what only `POR`, the bus or the host changes is left alone. -/
def Obligations.IterCompletes : Prop :=
  ∀ (n : Byte) (s : State), s.halted = false →
    ((s.cfg.txnUnderflow = .draw ∨ admitted s.txlen s.answers.bus = true) →
      ∃ t, exec (.iter n) s = .next t ∧ t.mclk = s.mclk + n.toNat ∧ t.cfg = s.cfg ∧ t.rom = s.rom ∧
        t.trace = s.trace ∧ t.answers = s.answers) ∧
    (s.cfg.txnUnderflow = .refuse → admitted s.txlen s.answers.bus = false →
      exec (.iter n) s = .refused .readWithoutPointer ∨ exec (.iter n) s = .refused .writeWithoutData)

/-- DERIVED (R124, R133 and R137 are inferences; decisions D10, D19, D20, D23, D31; log entry 2). The whole next state of
`ITER`, its calls apart: the RTC's state is that of the instruction's bus operations followed by `n` times `STEP 1`;
`halted` is set exactly on a shutdown answer at a frame; the CPU and its memory are those the trap check left, then the
instruction's effect, then, where the interrupt is asserted, the interrupt entry's; every byte none of the calls made
stored to reads as before; nothing else changes. -/
def Obligations.IterFrame : Prop :=
  ∀ (n : Byte) (s w : State), s.halted = false → execAll (s.answers.bus.map busInstr) s = .next w →
    ∃ t u, exec (.iter n) s = .next t ∧ execAll (List.replicate n.toNat (.step 1)) w = .next u ∧
      let c := afterEffect s.answers.cpu s.trapCheck
      let irq := frameOf n.toNat s.answers.frames = true ∧ s.answers.cont = true ∧ c.cpu.i = false
      let v := if irq then afterEffect s.answers.irq c else c
      t = { u with mclk := s.mclk + n.toNat, halted := frameOf n.toNat s.answers.frames && !s.answers.cont,
                   cpu := v.cpu, mem := v.mem, out := t.out } ∧
      ∀ a : Nat,
        (trapConditions s s.cfg.loadVec ∨ trapConditions s s.cfg.saveVec → ∀ st ∈ s.answers.native.stores, st.1.toNat ≠ a) →
        (∀ st ∈ s.answers.cpu.stores, st.1.toNat ≠ a) → (irq → ∀ st ∈ s.answers.irq.stores, st.1.toNat ≠ a) →
        t.mem.read a = s.mem.read a

/-- DERIVED (R124 is an inference; decision D10). The bus operations of an instruction take effect, each as the `DIN`,
`RD` or `WR` it is and in order, before the first of its cycles is counted. -/
def Obligations.IterBusBeforeCycles : Prop :=
  ∀ (n : Byte) (s t : State), exec (.iter n) s = .next t →
    ∃ u v, execAll (s.answers.bus.map busInstr) s = .next u ∧
      execAll (List.replicate n.toNat (.step 1)) u = .next v ∧
      t.cal = v.cal ∧ t.acc = v.acc ∧ t.run = v.run ∧ t.h24 = v.h24 ∧ t.vbaten = v.vbaten ∧ t.nvram = v.nvram ∧
      t.dirty = v.dirty ∧ t.buf = v.buf ∧ t.txlen = v.txlen ∧ t.draws = v.draws

/-- DERIVED (decisions D10, D19, D20, D23, D27). What an iteration calls and puts out, newest first. It begins with the
native routine where the trap fires and `Cpu.step()`; then come the bytes of the instruction's `RD`s, each the byte that
`RD` puts out when the bus operations are performed on the state before the iteration, none of its cycles counted
(R124 is an inference); then the cycles, each video, input, storage, RTC; then, on a frame, the refresh, and either the
end of the presentation or the delay and, with the interrupt-disable flag clear, the interrupt. -/
def Obligations.IterCallsInOrder : Prop :=
  ∀ (n : Byte) (s t : State), exec (.iter n) s = .next t →
    ∃ w, execAll (s.answers.bus.map busInstr) { s with out := .cpuStep :: nativeCalls s ++ s.out } = .next w ∧
      t.out =
        (if frameOf n.toNat s.answers.frames then
          (if s.answers.cont then
            (if (afterEffect s.answers.cpu s.trapCheck).cpu.i then [.delay s.cfg.pacingDelay, .refresh]
             else [.irq, .delay s.cfg.pacingDelay, .refresh])
           else [.presentationEnd, .refresh])
         else []) ++ (List.replicate n.toNat cycleEvents).flatten ++ w.out

/-- DERIVED (decisions D10, D19). The fan-out: every stepper is called exactly `n` times in an iteration of `n` elapsed
cycles. -/
def Obligations.FanOutExactlyN : Prop :=
  ∀ (n : Byte) (s t : State), exec (.iter n) s = .next t →
    t.out.count .videoStep = s.out.count .videoStep + n.toNat ∧
    t.out.count .inputStep = s.out.count .inputStep + n.toNat ∧
    t.out.count .storageStep = s.out.count .storageStep + n.toNat ∧
    t.out.count .rtcStep = s.out.count .rtcStep + n.toNat ∧
    t.out.count .cpuStep = s.out.count .cpuStep + 1

/-- The presentation (R127, R128): one refresh in an iteration with a frame, however many frames completed, none in one
without, at most one interrupt, and no cycle is cut short by a frame; it halts exactly on a shutdown answer at a frame,
and then neither delays nor interrupts. -/
def Obligations.RefreshAndShutdown : Prop :=
  ∀ (n : Byte) (s t : State), exec (.iter n) s = .next t →
    t.out.count .refresh = s.out.count .refresh + (if frameOf n.toNat s.answers.frames then 1 else 0) ∧
    t.out.count .irq ≤ s.out.count .irq + 1 ∧ t.out.count .videoStep = s.out.count .videoStep + n.toNat ∧
    (t.halted = true ↔ frameOf n.toNat s.answers.frames = true ∧ s.answers.cont = false) ∧
    (t.halted = true → t.out.count .irq = s.out.count .irq ∧
      t.out.count (.delay s.cfg.pacingDelay) = s.out.count (.delay s.cfg.pacingDelay))

/-- Interrupts (R132): `Cpu.irq()` is called in an iteration exactly where a frame completed, the presentation continues
and the interrupt-disable flag, as the executed instruction left it, is clear; once; and never by another operation. -/
def Obligations.IrqOnlyAtFrames : Prop :=
  (∀ (n : Byte) (s t : State), exec (.iter n) s = .next t →
    t.out.count .irq = s.out.count .irq +
      (if frameOf n.toNat s.answers.frames ∧ s.answers.cont = true ∧
          s.answers.cpu.i.getD s.trapCheck.cpu.i = false then 1 else 0)) ∧
  (∀ (i : Instr) (s t : State), (∀ n, i ≠ .iter n) → exec i s = .next t →
    t.out.count .irq = s.out.count .irq)

/-! ## The whole machine -/

/-- A step runs the decoded operation: the next line is taken off the trace, its answers stand beside the word, nothing
is put out yet, and the operation is performed; a reserved word is refused; an empty trace is `IDLE`.
DERIVED (decisions D1, D34; log entries 1 and 2). -/
def Obligations.StepRunsDecoded : Prop :=
  ∀ (s : State) (l : Line) (rest : List Line),
    (s.trace = l :: rest → ∀ i, decode s.cfg (.opw l.word) = .op i →
      step s = exec i { s with trace := rest, answers := l.answers, rom := romAfter s.rom l.answers.newRom, out := [] }) ∧
    (s.trace = l :: rest → decode s.cfg (.opw l.word) = .reserved l.word →
      step s = .refused (.reservedOpWord l.word)) ∧
    (s.trace = [] → step s = .next { s with out := [] })

/-- DERIVED (log entries 3 and 4). Progress: with `TXN_UNDERFLOW` draw, a step is refused only for a reserved word or for
an `ITER` after the loop has terminated. -/
def Obligations.OnlyReservedOrHaltedRefuse : Prop :=
  ∀ s : State, s.cfg.txnUnderflow = .draw →
    (∃ t, step s = .next t) ∨
    (∃ l rest, s.trace = l :: rest ∧
      (decode s.cfg (.opw l.word) = .reserved l.word ∨
        (s.halted = true ∧ ∃ n, decode s.cfg (.opw l.word) = .op (.iter n))))

/-- DERIVED (the canonical form is the model's, log entry 8; R33 for the buffer). Every step keeps the memories canonical
and inside their spaces, and the transaction buffer within 16 bytes. -/
def Obligations.StepKeepsInv : Prop := ∀ s t : State, s.Inv → step s = .next t → t.Inv

/-- DERIVED (R34 rests on decision D11; 255 is the largest operand of a `STEP` word). Every step keeps the accumulator
below one second, and no step writes the parameters. -/
def Obligations.StepKeepsAccBelowCps : Prop :=
  ∀ s t : State, 255 ≤ s.cfg.cps → s.acc < s.cfg.cps → step s = .next t → t.cfg = s.cfg ∧ t.acc < t.cfg.cps

/-- DERIVED (R241 is an inference). `CalValid` is broken by writes alone: every other operation, and an iteration whose
instruction performs no `WR`, keeps it. -/
def Obligations.OnlyWritesBreakCalValid : Prop :=
  ∀ (i : Instr) (s t : State), s.cal.Valid → exec i s = .next t →
    i ∉ [.wr, .wrSec, .wrMin, .wrHour, .wrWkday, .wrDay, .wrMonth, .wrYear] →
    ((∃ n, i = .iter n) → BusOp.wr ∉ s.answers.bus) → t.cal.Valid

/-- DERIVED (R210 is an inference; decisions D12, D17 for `FLUSH` and `RST`). The mode changes only with the hour, and
NVRAM only by its own write: no operation but a `WR`, the sub-operation of that register, `POR`, or an iteration whose
instruction performs a `WR` changes `h24`, or changes NVRAM. -/
def Obligations.ModeAndNvramChangeOnlyByWrite : Prop :=
  ∀ (i : Instr) (s t : State), exec i s = .next t →
    (t.h24 ≠ s.h24 → i = .wr ∨ i = .wrHour ∨ i = .por ∨ (BusOp.wr ∈ s.answers.bus ∧ ∃ n, i = .iter n)) ∧
    (t.nvram ≠ s.nvram → i = .wr ∨ (∃ k, i = .wrNv k) ∨ i = .por ∨ (BusOp.wr ∈ s.answers.bus ∧ ∃ n, i = .iter n))

/-- DERIVED (decision D31 for the native routines; R13 and R38 say the block writes no CPU memory; log entries 2 and 18).
Every byte of CPU memory outside those that the collaborators an operation calls stored to reads as before, and an
operation that calls none of them, or whose collaborators store nothing, leaves CPU memory as it was. -/
def Obligations.BlockWritesNoCpuMemory : Prop :=
  ∀ (i : Instr) (s t : State), exec i s = .next t →
    (∀ a : Nat, (∀ st ∈ storesOf s.answers i, st.1.toNat ≠ a) → t.mem.read a = s.mem.read a) ∧
    (storesOf s.answers i = [] → t.mem = s.mem)

/-- DERIVED (decision D17, D25). Once halted, the machine stays halted until a `POR`, and its clock stands still until a
`RST` or a `POR`. -/
def Obligations.HaltedStaysHalted : Prop :=
  ∀ (i : Instr) (s t : State), s.halted = true → exec i s = .next t →
    (i ≠ .por → t.halted = true) ∧ (i ≠ .por → i ≠ .rst → t.mclk = s.mclk)
end

