-- ==== Sys2Proof/Laws/Calendar.lean ====
section
/-! SUPPORT. What `tick()` does, one lemma for each way its carries can end, and what it leaves valid. -/

namespace Sys2Proof

/-- One up is the byte's own addition below 255. -/
theorem succByte_lt {v : Byte} (h : v.toNat < 255) : succByte v = v + 1 ∧ (v + 1).toNat = v.toNat + 1 := by
  constructor
  · apply BitVec.eq_of_toNat_eq; simp [succByte]
  · simp [BitVec.toNat_add]; omega

theorem nextWeekday_toNat : ∀ w : BitVec 3, (nextWeekday w).toNat = w.toNat % 7 + 1 := by decide

theorem nextWeekday_ne : ∀ w : BitVec 3, 1 ≤ w.toNat → nextWeekday w ≠ w := by decide

theorem daysInMonth_bounds (m y : Nat) : 28 ≤ daysInMonth m y ∧ daysInMonth m y ≤ 31 := by
  unfold daysInMonth; split <;> simp; cases isLeap y <;> simp

/-- A day carry moves the weekday, whatever the date is. -/
@[simp] theorem carryDay_wkd (c : Calendar) : c.carryDay.wkd = nextWeekday c.wkd := by
  unfold Calendar.carryDay
  simp only
  split
  · rfl
  · unfold Calendar.carryMonth; split
    · rfl
    · unfold Calendar.carryYear; split <;> rfl

/-- A day carry leaves the time of day alone. -/
theorem carryDay_time (c : Calendar) : c.carryDay.sec = c.sec ∧ c.carryDay.min = c.min ∧ c.carryDay.hr = c.hr := by
  unfold Calendar.carryDay
  simp only
  split
  · exact ⟨rfl, rfl, rfl⟩
  · unfold Calendar.carryMonth; split
    · exact ⟨rfl, rfl, rfl⟩
    · unfold Calendar.carryYear; split <;> exact ⟨rfl, rfl, rfl⟩

/-- The four ways a day carry ends. -/
theorem carryDay_date (c : Calendar) :
    (c.day.toNat < daysInMonth c.mon.toNat c.yr.toNat →
      c.carryDay = { c with wkd := nextWeekday c.wkd, day := c.day + 1 }) ∧
    (daysInMonth c.mon.toNat c.yr.toNat ≤ c.day.toNat → c.mon.toNat < 12 →
      c.carryDay = { c with wkd := nextWeekday c.wkd, day := 1, mon := c.mon + 1 }) ∧
    (daysInMonth c.mon.toNat c.yr.toNat ≤ c.day.toNat → 12 ≤ c.mon.toNat → c.yr.toNat < 99 →
      c.carryDay = { c with wkd := nextWeekday c.wkd, day := 1, mon := 1, yr := c.yr + 1 }) ∧
    (daysInMonth c.mon.toNat c.yr.toNat ≤ c.day.toNat → 12 ≤ c.mon.toNat → 99 ≤ c.yr.toNat →
      c.carryDay = { c with wkd := nextWeekday c.wkd, day := 1, mon := 1, yr := 0 }) := by
  have hd := daysInMonth_bounds c.mon.toNat c.yr.toNat
  unfold Calendar.carryDay Calendar.carryMonth Calendar.carryYear
  refine ⟨?_, ?_, ?_, ?_⟩
  · intro h
    simp [Nat.succ_le_of_lt h, (succByte_lt (show c.day.toNat < 255 by omega)).1]
  · intro h h1
    simp [show ¬ (c.day.toNat + 1 ≤ daysInMonth c.mon.toNat c.yr.toNat) by omega, Nat.succ_le_of_lt h1,
      (succByte_lt (show c.mon.toNat < 255 by omega)).1]
  · intro h h1 h2
    simp [show ¬ (c.day.toNat + 1 ≤ daysInMonth c.mon.toNat c.yr.toNat) by omega,
      show ¬ (c.mon.toNat + 1 ≤ 12) by omega, show c.yr.toNat + 1 < 100 by omega,
      (succByte_lt (show c.yr.toNat < 255 by omega)).1]
  · intro h h1 h2
    simp [show ¬ (c.day.toNat + 1 ≤ daysInMonth c.mon.toNat c.yr.toNat) by omega,
      show ¬ (c.mon.toNat + 1 ≤ 12) by omega, show ¬ c.yr.toNat + 1 < 100 by omega]

/-- A tick that ends in the seconds. -/
theorem tick_of_sec_lt {c : Calendar} (hs : c.sec.toNat < 59) : c.tick = { c with sec := c.sec + 1 } := by
  unfold Calendar.tick
  rw [if_pos (show c.sec.toNat + 1 < 60 by omega), (succByte_lt (by omega)).1]

/-- A tick that ends in the minutes. -/
theorem tick_of_min_lt {c : Calendar} (hs : c.sec.toNat = 59) (hm : c.min.toNat < 59) :
    c.tick = { c with sec := 0, min := c.min + 1 } := by
  unfold Calendar.tick Calendar.carryMinute
  simp [hs, show c.min.toNat + 1 < 60 by omega, (succByte_lt (show c.min.toNat < 255 by omega)).1]

/-- A tick that ends in the hours. -/
theorem tick_of_hr_lt {c : Calendar} (hs : c.sec.toNat = 59) (hm : c.min.toNat = 59) (hh : c.hr.toNat < 23) :
    c.tick = { c with sec := 0, min := 0, hr := c.hr + 1 } := by
  unfold Calendar.tick Calendar.carryMinute Calendar.carryHour
  simp [hs, hm, show c.hr.toNat + 1 < 24 by omega, (succByte_lt (show c.hr.toNat < 255 by omega)).1]

/-- A tick that carries into the day. -/
theorem tick_of_day_carry {c : Calendar} (hs : c.sec.toNat = 59) (hm : c.min.toNat = 59) (hh : c.hr.toNat = 23) :
    c.tick = ({ c with sec := 0, min := 0, hr := 0 } : Calendar).carryDay := by
  unfold Calendar.tick Calendar.carryMinute Calendar.carryHour; simp [hs, hm, hh]

end Sys2Proof
end

