-- ==== Sys2Proof/Laws/Memory.lean ====
section
/-! SUPPORT. The laws of byte memories: read after write, and that every memory operation keeps the canonical form
and the bound of its space. -/

namespace Sys2Proof

theorem Memory.read_put (a x : Nat) (v : Byte) (m : Memory) (h : ∀ b ∈ m, a < b.1) :
    Memory.read (Memory.put a v m) x = if x = a then v else Memory.read m x := by
  unfold Memory.put
  split
  · rename_i hv
    subst hv
    split
    · rename_i hx
      subst hx
      induction m with
      | nil => rfl
      | cons c m ih =>
        have hc : x < c.1 := h c (by simp)
        have : ¬ x = c.1 := by omega
        simp only [Memory.read, this, if_false]
        exact ih fun b hb => h b (by simp [hb])
    · rfl
  · rfl

/-- The canonical form says that every listed address is at least the bound. -/
theorem Memory.wfFrom_lower {lo : Nat} {m : Memory} (h : Memory.wfFrom lo m = true) : ∀ b ∈ m, lo ≤ b.1 := by
  induction m generalizing lo with
  | nil => simp
  | cons c m ih =>
    simp only [Memory.wfFrom, Bool.and_eq_true, decide_eq_true_eq] at h
    intro b hb
    rcases List.mem_cons.mp hb with rfl | hb
    · exact h.1.1
    · have := ih h.2 b hb
      omega

/-- A lower bound may be weakened. -/
theorem Memory.wfFrom_mono {lo lo' : Nat} {m : Memory} (hl : lo' ≤ lo) (h : Memory.wfFrom lo m = true) :
    Memory.wfFrom lo' m = true := by
  cases m with
  | nil => rfl
  | cons c m =>
    simp only [Memory.wfFrom, Bool.and_eq_true, decide_eq_true_eq] at h ⊢
    exact ⟨⟨by omega, h.1.2⟩, h.2⟩

/-- Read after write, from any bound on. -/
theorem Memory.read_write_from {lo : Nat} {m : Memory} (h : Memory.wfFrom lo m = true) (a x : Nat) (v : Byte) :
    Memory.read (Memory.write m a v) x = if x = a then v else Memory.read m x := by
  induction m generalizing lo with
  | nil => exact Memory.read_put a x v [] (by simp)
  | cons c m ih =>
    obtain ⟨b, w⟩ := c
    simp only [Memory.wfFrom, Bool.and_eq_true, decide_eq_true_eq] at h
    have hlow := Memory.wfFrom_lower h.2
    simp only [Memory.write]
    split
    · rename_i hab
      apply Memory.read_put
      intro d hd
      rcases List.mem_cons.mp hd with rfl | hd
      · exact hab
      · have := hlow d hd
        omega
    · split
      · rename_i hab
        subst hab
        rw [Memory.read_put a x v m fun d hd => by have := hlow d hd; omega]
        simp only [Memory.read]
        split <;> rfl
      · rename_i hne
        simp only [Memory.read, ih h.2]
        by_cases hxb : x = b
        · subst hxb
          have : ¬ x = a := fun e => hne e.symm
          simp [this]
        · simp [hxb]

/-- Read after write: the byte written at its address, every other byte as before. -/
theorem Memory.read_write {m : Memory} (h : m.wf = true) (a x : Nat) (v : Byte) :
    (m.write a v).read x = if x = a then v else m.read x := Memory.read_write_from h a x v

/-- A write leaves every other address as it was, whatever the memory's form. -/
theorem Memory.read_write_ne (m : Memory) (v : Byte) {a x : Nat} (h : x ≠ a) : (m.write a v).read x = m.read x := by
  have hp : ∀ r : Memory, (Memory.put a v r).read x = r.read x := by
    intro r
    unfold Memory.put
    split
    · rfl
    · exact if_neg h
  induction m with
  | nil => exact hp []
  | cons c m ih =>
    unfold Memory.write
    split
    · exact hp _
    · split
      · rename_i hc
        rw [hp]
        exact (if_neg (hc ▸ h)).symm
      · simp only [Memory.read, ih]

theorem Memory.wfFrom_put {lo a : Nat} {v : Byte} {m : Memory} (hl : lo ≤ a) (h : Memory.wfFrom (a + 1) m = true) :
    Memory.wfFrom lo (Memory.put a v m) = true := by
  unfold Memory.put
  split
  · exact Memory.wfFrom_mono (by omega) h
  · rename_i hv
    simp [Memory.wfFrom, hl, hv, h]

theorem Memory.wfFrom_write {lo a : Nat} {v : Byte} {m : Memory} (hl : lo ≤ a) (h : Memory.wfFrom lo m = true) :
    Memory.wfFrom lo (Memory.write m a v) = true := by
  induction m generalizing lo with
  | nil => exact Memory.wfFrom_put hl rfl
  | cons c m ih =>
    obtain ⟨b, w⟩ := c
    simp only [Memory.wfFrom, Bool.and_eq_true, decide_eq_true_eq] at h
    simp only [Memory.write]
    split
    · rename_i hab
      apply Memory.wfFrom_put hl
      simp [Memory.wfFrom, h.1.2, h.2, Nat.succ_le_of_lt hab]
    · split
      · rename_i hab
        subst hab
        exact Memory.wfFrom_put hl h.2
      · rename_i h1 h2
        simp only [Memory.wfFrom, Bool.and_eq_true, decide_eq_true_eq]
        exact ⟨h.1, ih (by omega) h.2⟩

/-- A write keeps the canonical form. -/
theorem Memory.wf_write {m : Memory} (h : m.wf = true) (a : Nat) (v : Byte) : (m.write a v).wf = true :=
  Memory.wfFrom_write (Nat.zero_le a) h

/-- A write below the bound of the space keeps the memory below it. -/
theorem Memory.below_write {n a : Nat} {m : Memory} (h : m.below n = true) (ha : a < n) (v : Byte) :
    (m.write a v).below n = true := by
  have hput : ∀ r : Memory, r.below n = true → (Memory.put a v r).below n = true := by
    intro r hr
    unfold Memory.put
    split
    · exact hr
    · simpa [Memory.below, ha] using hr
  induction m with
  | nil => exact hput [] rfl
  | cons c m ih =>
    obtain ⟨b, w⟩ := c
    have h' : b < n ∧ Memory.below n m = true := by simpa [Memory.below] using h
    simp only [Memory.write]
    split
    · exact hput _ h
    · split
      · exact hput _ h'.2
      · have := ih h'.2
        simp only [Memory.below, List.all_cons, Bool.and_eq_true, decide_eq_true_eq] at this ⊢
        exact ⟨h'.1, this⟩

theorem Memory.wf_writeAll {m : Memory} (h : m.wf = true) (a : Nat) (bs : List Byte) :
    (m.writeAll a bs).wf = true := by
  induction bs generalizing m a with
  | nil => exact h
  | cons b bs ih => exact ih (Memory.wf_write h a b) (a + 1)

theorem Memory.below_writeAll {n : Nat} {m : Memory} (h : m.below n = true) (a : Nat) (bs : List Byte)
    (hl : a + bs.length ≤ n) : (m.writeAll a bs).below n = true := by
  induction bs generalizing m a with
  | nil => exact h
  | cons b bs ih =>
    simp only [List.length_cons] at hl
    exact ih (Memory.below_write h (by omega) b) (a + 1) (by omega)

theorem Memory.wf_ofBytes (bs : List Byte) : (Memory.ofBytes bs).wf = true := Memory.wf_writeAll rfl 0 bs

theorem Memory.below_ofBytes (bs : List Byte) : (Memory.ofBytes bs).below bs.length = true :=
  Memory.below_writeAll rfl 0 bs (by omega)

theorem Memory.read_writeAll {m : Memory} (h : m.wf = true) (a x : Nat) (bs : List Byte) :
    (m.writeAll a bs).read x = if a ≤ x ∧ x < a + bs.length then bs.getD (x - a) 0 else m.read x := by
  induction bs generalizing m a with
  | nil =>
    have : ¬ (a ≤ x ∧ x < a + ([] : List Byte).length) := by simp
    rw [if_neg this]; rfl
  | cons b bs ih =>
    simp only [Memory.writeAll, ih (Memory.wf_write h a b), Memory.read_write h, List.length_cons]
    by_cases hx : x = a
    · subst hx
      have h1 : ¬ (x + 1 ≤ x ∧ x < x + 1 + bs.length) := by omega
      have h2 : x ≤ x ∧ x < x + (bs.length + 1) := by omega
      rw [if_neg h1, if_pos h2]; simp
    · by_cases h1 : a + 1 ≤ x ∧ x < a + 1 + bs.length
      · have h2 : a ≤ x ∧ x < a + (bs.length + 1) := by omega
        have h3 : x - a = (x - (a + 1)) + 1 := by omega
        rw [if_pos h1, if_pos h2, h3]; simp
      · have h2 : ¬ (a ≤ x ∧ x < a + (bs.length + 1)) := by omega
        rw [if_neg h1, if_neg h2, if_neg hx]

/-- The bytes of an image stand at their offsets. -/
theorem Memory.read_ofBytes (bs : List Byte) (x : Nat) :
    (Memory.ofBytes bs).read x = if x < bs.length then bs.getD x 0 else 0 := by
  simp only [Memory.ofBytes, Memory.read_writeAll (m := []) rfl, Nat.zero_le, true_and, Nat.zero_add, Nat.sub_zero]
  split <;> rfl

theorem Memory.wf_storeBelow {n : Nat} {m : Memory} (h : m.wf = true) (cs : List Host.Cell) :
    (Memory.storeBelow n m cs).wf = true := by
  induction cs generalizing m with
  | nil => exact h
  | cons c cs ih =>
    apply ih
    split
    · exact Memory.wf_write h _ _
    · exact h

theorem Memory.below_storeBelow {n : Nat} {m : Memory} (h : m.below n = true) (cs : List Host.Cell) :
    (Memory.storeBelow n m cs).below n = true := by
  induction cs generalizing m with
  | nil => exact h
  | cons c cs ih =>
    apply ih
    split
    · exact Memory.below_write h (by assumption) _
    · exact h

theorem RomImage.wf_ofCells (size : Nat) (cells : List Host.Cell) : (RomImage.ofCells size cells).wf = true := by
  simp [RomImage.wf, RomImage.ofCells, Memory.wf_storeBelow (m := []) rfl, Memory.below_storeBelow (m := []) rfl]

namespace Machine

theorem wf_storeAll {m : Memory} (h : m.wf = true) (ss : List (Addr × Byte)) : (storeAll m ss).wf = true := by
  induction ss generalizing m with
  | nil => exact h
  | cons c cs ih => exact ih (Memory.wf_write h _ _)

theorem below_storeAll {m : Memory} (h : m.below 65536 = true) (ss : List (Addr × Byte)) :
    (storeAll m ss).below 65536 = true := by
  induction ss generalizing m with
  | nil => exact h
  | cons c cs ih => exact ih (Memory.below_write h (by exact c.1.isLt) _)

/-- Stores leave every address they do not name as it was. -/
theorem read_storeAll_ne (m : Memory) {ss : List (Addr × Byte)} {a : Nat} (h : ∀ st ∈ ss, st.1.toNat ≠ a) :
    (storeAll m ss).read a = m.read a := by
  induction ss generalizing m with
  | nil => rfl
  | cons c cs ih =>
    rw [storeAll, ih _ fun st hst => h st (by simp [hst]), Memory.read_write_ne _ _ (Ne.symm (h c (by simp)))]

/-- Stores in order, as a fold of single stores. -/
theorem storeAll_eq_foldl (m : Memory) (ss : List (Addr × Byte)) :
    storeAll m ss = ss.foldl (fun m st => m.write st.1.toNat st.2) m := by
  induction ss generalizing m with
  | nil => rfl
  | cons c cs ih => exact ih _

theorem wf_romAfter {r : RomImage} (h : r.wf = true) (n : Option (Nat × List Host.Cell)) :
    (romAfter r n).wf = true := by
  cases n with
  | none => exact h
  | some p => exact RomImage.wf_ofCells _ _

end Machine

end Sys2Proof
end

