-- ==== Sys2Proof/Laws/State.lean ====
section
/-! SUPPORT. One lemma per field of the state per named update, so that no later proof unfolds a record update. -/

namespace Sys2Proof.Machine

/-! `State.emit` -/

@[simp] theorem State.emit_cal (s : State) (e : Event) : (s.emit e).cal = s.cal := rfl
@[simp] theorem State.emit_run (s : State) (e : Event) : (s.emit e).run = s.run := rfl
@[simp] theorem State.emit_h24 (s : State) (e : Event) : (s.emit e).h24 = s.h24 := rfl
@[simp] theorem State.emit_vbaten (s : State) (e : Event) : (s.emit e).vbaten = s.vbaten := rfl
@[simp] theorem State.emit_nvram (s : State) (e : Event) : (s.emit e).nvram = s.nvram := rfl
@[simp] theorem State.emit_dirty (s : State) (e : Event) : (s.emit e).dirty = s.dirty := rfl
@[simp] theorem State.emit_buf (s : State) (e : Event) : (s.emit e).buf = s.buf := rfl
@[simp] theorem State.emit_txlen (s : State) (e : Event) : (s.emit e).txlen = s.txlen := rfl
@[simp] theorem State.emit_acc (s : State) (e : Event) : (s.emit e).acc = s.acc := rfl
@[simp] theorem State.emit_mclk (s : State) (e : Event) : (s.emit e).mclk = s.mclk := rfl
@[simp] theorem State.emit_halted (s : State) (e : Event) : (s.emit e).halted = s.halted := rfl
@[simp] theorem State.emit_cpu (s : State) (e : Event) : (s.emit e).cpu = s.cpu := rfl
@[simp] theorem State.emit_mem (s : State) (e : Event) : (s.emit e).mem = s.mem := rfl
@[simp] theorem State.emit_rom (s : State) (e : Event) : (s.emit e).rom = s.rom := rfl
@[simp] theorem State.emit_cfg (s : State) (e : Event) : (s.emit e).cfg = s.cfg := rfl
@[simp] theorem State.emit_draws (s : State) (e : Event) : (s.emit e).draws = s.draws := rfl
@[simp] theorem State.emit_answers (s : State) (e : Event) : (s.emit e).answers = s.answers := rfl
@[simp] theorem State.emit_trace (s : State) (e : Event) : (s.emit e).trace = s.trace := rfl
@[simp] theorem State.emit_out (s : State) (e : Event) : (s.emit e).out = e :: s.out := rfl

/-! `State.setRun` -/

@[simp] theorem State.setRun_cal (s : State) (f : Bool) : (s.setRun f).cal = s.cal := rfl
@[simp] theorem State.setRun_run (s : State) (f : Bool) : (s.setRun f).run = f := rfl
@[simp] theorem State.setRun_h24 (s : State) (f : Bool) : (s.setRun f).h24 = s.h24 := rfl
@[simp] theorem State.setRun_vbaten (s : State) (f : Bool) : (s.setRun f).vbaten = s.vbaten := rfl
@[simp] theorem State.setRun_nvram (s : State) (f : Bool) : (s.setRun f).nvram = s.nvram := rfl
@[simp] theorem State.setRun_dirty (s : State) (f : Bool) : (s.setRun f).dirty = s.dirty := rfl
@[simp] theorem State.setRun_buf (s : State) (f : Bool) : (s.setRun f).buf = s.buf := rfl
@[simp] theorem State.setRun_txlen (s : State) (f : Bool) : (s.setRun f).txlen = s.txlen := rfl
@[simp] theorem State.setRun_acc (s : State) (f : Bool) : (s.setRun f).acc = s.acc := rfl
@[simp] theorem State.setRun_mclk (s : State) (f : Bool) : (s.setRun f).mclk = s.mclk := rfl
@[simp] theorem State.setRun_halted (s : State) (f : Bool) : (s.setRun f).halted = s.halted := rfl
@[simp] theorem State.setRun_cpu (s : State) (f : Bool) : (s.setRun f).cpu = s.cpu := rfl
@[simp] theorem State.setRun_mem (s : State) (f : Bool) : (s.setRun f).mem = s.mem := rfl
@[simp] theorem State.setRun_rom (s : State) (f : Bool) : (s.setRun f).rom = s.rom := rfl
@[simp] theorem State.setRun_cfg (s : State) (f : Bool) : (s.setRun f).cfg = s.cfg := rfl
@[simp] theorem State.setRun_draws (s : State) (f : Bool) : (s.setRun f).draws = s.draws := rfl
@[simp] theorem State.setRun_answers (s : State) (f : Bool) : (s.setRun f).answers = s.answers := rfl
@[simp] theorem State.setRun_trace (s : State) (f : Bool) : (s.setRun f).trace = s.trace := rfl
@[simp] theorem State.setRun_out (s : State) (f : Bool) : (s.setRun f).out = s.out := rfl

/-! `State.setMode12` -/

@[simp] theorem State.setMode12_cal (s : State) (f : Bool) : (s.setMode12 f).cal = s.cal := rfl
@[simp] theorem State.setMode12_run (s : State) (f : Bool) : (s.setMode12 f).run = s.run := rfl
@[simp] theorem State.setMode12_h24 (s : State) (f : Bool) : (s.setMode12 f).h24 = !f := rfl
@[simp] theorem State.setMode12_vbaten (s : State) (f : Bool) : (s.setMode12 f).vbaten = s.vbaten := rfl
@[simp] theorem State.setMode12_nvram (s : State) (f : Bool) : (s.setMode12 f).nvram = s.nvram := rfl
@[simp] theorem State.setMode12_dirty (s : State) (f : Bool) : (s.setMode12 f).dirty = s.dirty := rfl
@[simp] theorem State.setMode12_buf (s : State) (f : Bool) : (s.setMode12 f).buf = s.buf := rfl
@[simp] theorem State.setMode12_txlen (s : State) (f : Bool) : (s.setMode12 f).txlen = s.txlen := rfl
@[simp] theorem State.setMode12_acc (s : State) (f : Bool) : (s.setMode12 f).acc = s.acc := rfl
@[simp] theorem State.setMode12_mclk (s : State) (f : Bool) : (s.setMode12 f).mclk = s.mclk := rfl
@[simp] theorem State.setMode12_halted (s : State) (f : Bool) : (s.setMode12 f).halted = s.halted := rfl
@[simp] theorem State.setMode12_cpu (s : State) (f : Bool) : (s.setMode12 f).cpu = s.cpu := rfl
@[simp] theorem State.setMode12_mem (s : State) (f : Bool) : (s.setMode12 f).mem = s.mem := rfl
@[simp] theorem State.setMode12_rom (s : State) (f : Bool) : (s.setMode12 f).rom = s.rom := rfl
@[simp] theorem State.setMode12_cfg (s : State) (f : Bool) : (s.setMode12 f).cfg = s.cfg := rfl
@[simp] theorem State.setMode12_draws (s : State) (f : Bool) : (s.setMode12 f).draws = s.draws := rfl
@[simp] theorem State.setMode12_answers (s : State) (f : Bool) : (s.setMode12 f).answers = s.answers := rfl
@[simp] theorem State.setMode12_trace (s : State) (f : Bool) : (s.setMode12 f).trace = s.trace := rfl
@[simp] theorem State.setMode12_out (s : State) (f : Bool) : (s.setMode12 f).out = s.out := rfl

/-! `State.setVbaten` -/

@[simp] theorem State.setVbaten_cal (s : State) (f : Bool) : (s.setVbaten f).cal = s.cal := rfl
@[simp] theorem State.setVbaten_run (s : State) (f : Bool) : (s.setVbaten f).run = s.run := rfl
@[simp] theorem State.setVbaten_h24 (s : State) (f : Bool) : (s.setVbaten f).h24 = s.h24 := rfl
@[simp] theorem State.setVbaten_vbaten (s : State) (f : Bool) : (s.setVbaten f).vbaten = f := rfl
@[simp] theorem State.setVbaten_nvram (s : State) (f : Bool) : (s.setVbaten f).nvram = s.nvram := rfl
@[simp] theorem State.setVbaten_dirty (s : State) (f : Bool) : (s.setVbaten f).dirty = s.dirty := rfl
@[simp] theorem State.setVbaten_buf (s : State) (f : Bool) : (s.setVbaten f).buf = s.buf := rfl
@[simp] theorem State.setVbaten_txlen (s : State) (f : Bool) : (s.setVbaten f).txlen = s.txlen := rfl
@[simp] theorem State.setVbaten_acc (s : State) (f : Bool) : (s.setVbaten f).acc = s.acc := rfl
@[simp] theorem State.setVbaten_mclk (s : State) (f : Bool) : (s.setVbaten f).mclk = s.mclk := rfl
@[simp] theorem State.setVbaten_halted (s : State) (f : Bool) : (s.setVbaten f).halted = s.halted := rfl
@[simp] theorem State.setVbaten_cpu (s : State) (f : Bool) : (s.setVbaten f).cpu = s.cpu := rfl
@[simp] theorem State.setVbaten_mem (s : State) (f : Bool) : (s.setVbaten f).mem = s.mem := rfl
@[simp] theorem State.setVbaten_rom (s : State) (f : Bool) : (s.setVbaten f).rom = s.rom := rfl
@[simp] theorem State.setVbaten_cfg (s : State) (f : Bool) : (s.setVbaten f).cfg = s.cfg := rfl
@[simp] theorem State.setVbaten_draws (s : State) (f : Bool) : (s.setVbaten f).draws = s.draws := rfl
@[simp] theorem State.setVbaten_answers (s : State) (f : Bool) : (s.setVbaten f).answers = s.answers := rfl
@[simp] theorem State.setVbaten_trace (s : State) (f : Bool) : (s.setVbaten f).trace = s.trace := rfl
@[simp] theorem State.setVbaten_out (s : State) (f : Bool) : (s.setVbaten f).out = s.out := rfl

/-! `State.setDirty` -/

@[simp] theorem State.setDirty_cal (s : State) (f : Bool) : (s.setDirty f).cal = s.cal := rfl
@[simp] theorem State.setDirty_run (s : State) (f : Bool) : (s.setDirty f).run = s.run := rfl
@[simp] theorem State.setDirty_h24 (s : State) (f : Bool) : (s.setDirty f).h24 = s.h24 := rfl
@[simp] theorem State.setDirty_vbaten (s : State) (f : Bool) : (s.setDirty f).vbaten = s.vbaten := rfl
@[simp] theorem State.setDirty_nvram (s : State) (f : Bool) : (s.setDirty f).nvram = s.nvram := rfl
@[simp] theorem State.setDirty_dirty (s : State) (f : Bool) : (s.setDirty f).dirty = f := rfl
@[simp] theorem State.setDirty_buf (s : State) (f : Bool) : (s.setDirty f).buf = s.buf := rfl
@[simp] theorem State.setDirty_txlen (s : State) (f : Bool) : (s.setDirty f).txlen = s.txlen := rfl
@[simp] theorem State.setDirty_acc (s : State) (f : Bool) : (s.setDirty f).acc = s.acc := rfl
@[simp] theorem State.setDirty_mclk (s : State) (f : Bool) : (s.setDirty f).mclk = s.mclk := rfl
@[simp] theorem State.setDirty_halted (s : State) (f : Bool) : (s.setDirty f).halted = s.halted := rfl
@[simp] theorem State.setDirty_cpu (s : State) (f : Bool) : (s.setDirty f).cpu = s.cpu := rfl
@[simp] theorem State.setDirty_mem (s : State) (f : Bool) : (s.setDirty f).mem = s.mem := rfl
@[simp] theorem State.setDirty_rom (s : State) (f : Bool) : (s.setDirty f).rom = s.rom := rfl
@[simp] theorem State.setDirty_cfg (s : State) (f : Bool) : (s.setDirty f).cfg = s.cfg := rfl
@[simp] theorem State.setDirty_draws (s : State) (f : Bool) : (s.setDirty f).draws = s.draws := rfl
@[simp] theorem State.setDirty_answers (s : State) (f : Bool) : (s.setDirty f).answers = s.answers := rfl
@[simp] theorem State.setDirty_trace (s : State) (f : Bool) : (s.setDirty f).trace = s.trace := rfl
@[simp] theorem State.setDirty_out (s : State) (f : Bool) : (s.setDirty f).out = s.out := rfl

/-! `State.halt` -/

@[simp] theorem State.halt_cal (s : State) : s.halt.cal = s.cal := rfl
@[simp] theorem State.halt_run (s : State) : s.halt.run = s.run := rfl
@[simp] theorem State.halt_h24 (s : State) : s.halt.h24 = s.h24 := rfl
@[simp] theorem State.halt_vbaten (s : State) : s.halt.vbaten = s.vbaten := rfl
@[simp] theorem State.halt_nvram (s : State) : s.halt.nvram = s.nvram := rfl
@[simp] theorem State.halt_dirty (s : State) : s.halt.dirty = s.dirty := rfl
@[simp] theorem State.halt_buf (s : State) : s.halt.buf = s.buf := rfl
@[simp] theorem State.halt_txlen (s : State) : s.halt.txlen = s.txlen := rfl
@[simp] theorem State.halt_acc (s : State) : s.halt.acc = s.acc := rfl
@[simp] theorem State.halt_mclk (s : State) : s.halt.mclk = s.mclk := rfl
@[simp] theorem State.halt_halted (s : State) : s.halt.halted = true := rfl
@[simp] theorem State.halt_cpu (s : State) : s.halt.cpu = s.cpu := rfl
@[simp] theorem State.halt_mem (s : State) : s.halt.mem = s.mem := rfl
@[simp] theorem State.halt_rom (s : State) : s.halt.rom = s.rom := rfl
@[simp] theorem State.halt_cfg (s : State) : s.halt.cfg = s.cfg := rfl
@[simp] theorem State.halt_draws (s : State) : s.halt.draws = s.draws := rfl
@[simp] theorem State.halt_answers (s : State) : s.halt.answers = s.answers := rfl
@[simp] theorem State.halt_trace (s : State) : s.halt.trace = s.trace := rfl
@[simp] theorem State.halt_out (s : State) : s.halt.out = s.out := rfl

/-! `State.endTxn` -/

@[simp] theorem State.endTxn_cal (s : State) : s.endTxn.cal = s.cal := rfl
@[simp] theorem State.endTxn_run (s : State) : s.endTxn.run = s.run := rfl
@[simp] theorem State.endTxn_h24 (s : State) : s.endTxn.h24 = s.h24 := rfl
@[simp] theorem State.endTxn_vbaten (s : State) : s.endTxn.vbaten = s.vbaten := rfl
@[simp] theorem State.endTxn_nvram (s : State) : s.endTxn.nvram = s.nvram := rfl
@[simp] theorem State.endTxn_dirty (s : State) : s.endTxn.dirty = s.dirty := rfl
@[simp] theorem State.endTxn_buf (s : State) : s.endTxn.buf = s.buf := rfl
@[simp] theorem State.endTxn_txlen (s : State) : s.endTxn.txlen = 0 := rfl
@[simp] theorem State.endTxn_acc (s : State) : s.endTxn.acc = s.acc := rfl
@[simp] theorem State.endTxn_mclk (s : State) : s.endTxn.mclk = s.mclk := rfl
@[simp] theorem State.endTxn_halted (s : State) : s.endTxn.halted = s.halted := rfl
@[simp] theorem State.endTxn_cpu (s : State) : s.endTxn.cpu = s.cpu := rfl
@[simp] theorem State.endTxn_mem (s : State) : s.endTxn.mem = s.mem := rfl
@[simp] theorem State.endTxn_rom (s : State) : s.endTxn.rom = s.rom := rfl
@[simp] theorem State.endTxn_cfg (s : State) : s.endTxn.cfg = s.cfg := rfl
@[simp] theorem State.endTxn_draws (s : State) : s.endTxn.draws = s.draws := rfl
@[simp] theorem State.endTxn_answers (s : State) : s.endTxn.answers = s.answers := rfl
@[simp] theorem State.endTxn_trace (s : State) : s.endTxn.trace = s.trace := rfl
@[simp] theorem State.endTxn_out (s : State) : s.endTxn.out = s.out := rfl

/-! `State.finishRead` -/

@[simp] theorem State.finishRead_cal (s : State) (v : Byte) : (s.finishRead v).cal = s.cal := rfl
@[simp] theorem State.finishRead_run (s : State) (v : Byte) : (s.finishRead v).run = s.run := rfl
@[simp] theorem State.finishRead_h24 (s : State) (v : Byte) : (s.finishRead v).h24 = s.h24 := rfl
@[simp] theorem State.finishRead_vbaten (s : State) (v : Byte) : (s.finishRead v).vbaten = s.vbaten := rfl
@[simp] theorem State.finishRead_nvram (s : State) (v : Byte) : (s.finishRead v).nvram = s.nvram := rfl
@[simp] theorem State.finishRead_dirty (s : State) (v : Byte) : (s.finishRead v).dirty = s.dirty := rfl
@[simp] theorem State.finishRead_buf (s : State) (v : Byte) : (s.finishRead v).buf = s.buf := rfl
@[simp] theorem State.finishRead_txlen (s : State) (v : Byte) : (s.finishRead v).txlen = 0 := rfl
@[simp] theorem State.finishRead_acc (s : State) (v : Byte) : (s.finishRead v).acc = s.acc := rfl
@[simp] theorem State.finishRead_mclk (s : State) (v : Byte) : (s.finishRead v).mclk = s.mclk := rfl
@[simp] theorem State.finishRead_halted (s : State) (v : Byte) : (s.finishRead v).halted = s.halted := rfl
@[simp] theorem State.finishRead_cpu (s : State) (v : Byte) : (s.finishRead v).cpu = s.cpu := rfl
@[simp] theorem State.finishRead_mem (s : State) (v : Byte) : (s.finishRead v).mem = s.mem := rfl
@[simp] theorem State.finishRead_rom (s : State) (v : Byte) : (s.finishRead v).rom = s.rom := rfl
@[simp] theorem State.finishRead_cfg (s : State) (v : Byte) : (s.finishRead v).cfg = s.cfg := rfl
@[simp] theorem State.finishRead_draws (s : State) (v : Byte) : (s.finishRead v).draws = s.draws := rfl
@[simp] theorem State.finishRead_answers (s : State) (v : Byte) : (s.finishRead v).answers = s.answers := rfl
@[simp] theorem State.finishRead_trace (s : State) (v : Byte) : (s.finishRead v).trace = s.trace := rfl
@[simp] theorem State.finishRead_out (s : State) (v : Byte) : (s.finishRead v).out = .dout v :: s.out := rfl

/-! `State.drawByte` -/

@[simp] theorem State.drawByte_cal (s : State) : s.drawByte.2.cal = s.cal := rfl
@[simp] theorem State.drawByte_run (s : State) : s.drawByte.2.run = s.run := rfl
@[simp] theorem State.drawByte_h24 (s : State) : s.drawByte.2.h24 = s.h24 := rfl
@[simp] theorem State.drawByte_vbaten (s : State) : s.drawByte.2.vbaten = s.vbaten := rfl
@[simp] theorem State.drawByte_nvram (s : State) : s.drawByte.2.nvram = s.nvram := rfl
@[simp] theorem State.drawByte_dirty (s : State) : s.drawByte.2.dirty = s.dirty := rfl
@[simp] theorem State.drawByte_buf (s : State) : s.drawByte.2.buf = s.buf := rfl
@[simp] theorem State.drawByte_txlen (s : State) : s.drawByte.2.txlen = s.txlen := rfl
@[simp] theorem State.drawByte_acc (s : State) : s.drawByte.2.acc = s.acc := rfl
@[simp] theorem State.drawByte_mclk (s : State) : s.drawByte.2.mclk = s.mclk := rfl
@[simp] theorem State.drawByte_halted (s : State) : s.drawByte.2.halted = s.halted := rfl
@[simp] theorem State.drawByte_cpu (s : State) : s.drawByte.2.cpu = s.cpu := rfl
@[simp] theorem State.drawByte_mem (s : State) : s.drawByte.2.mem = s.mem := rfl
@[simp] theorem State.drawByte_rom (s : State) : s.drawByte.2.rom = s.rom := rfl
@[simp] theorem State.drawByte_cfg (s : State) : s.drawByte.2.cfg = s.cfg := rfl
@[simp] theorem State.drawByte_draws (s : State) : s.drawByte.2.draws = s.draws + 1 := rfl
@[simp] theorem State.drawByte_answers (s : State) : s.drawByte.2.answers = s.answers := rfl
@[simp] theorem State.drawByte_trace (s : State) : s.drawByte.2.trace = s.trace := rfl
@[simp] theorem State.drawByte_out (s : State) : s.drawByte.2.out = s.out := rfl

/-! `State.applyCpu` -/

@[simp] theorem State.applyCpu_cal (s : State) (e : CpuEffect) : (s.applyCpu e).cal = s.cal := rfl
@[simp] theorem State.applyCpu_run (s : State) (e : CpuEffect) : (s.applyCpu e).run = s.run := rfl
@[simp] theorem State.applyCpu_h24 (s : State) (e : CpuEffect) : (s.applyCpu e).h24 = s.h24 := rfl
@[simp] theorem State.applyCpu_vbaten (s : State) (e : CpuEffect) : (s.applyCpu e).vbaten = s.vbaten := rfl
@[simp] theorem State.applyCpu_nvram (s : State) (e : CpuEffect) : (s.applyCpu e).nvram = s.nvram := rfl
@[simp] theorem State.applyCpu_dirty (s : State) (e : CpuEffect) : (s.applyCpu e).dirty = s.dirty := rfl
@[simp] theorem State.applyCpu_buf (s : State) (e : CpuEffect) : (s.applyCpu e).buf = s.buf := rfl
@[simp] theorem State.applyCpu_txlen (s : State) (e : CpuEffect) : (s.applyCpu e).txlen = s.txlen := rfl
@[simp] theorem State.applyCpu_acc (s : State) (e : CpuEffect) : (s.applyCpu e).acc = s.acc := rfl
@[simp] theorem State.applyCpu_mclk (s : State) (e : CpuEffect) : (s.applyCpu e).mclk = s.mclk := rfl
@[simp] theorem State.applyCpu_halted (s : State) (e : CpuEffect) : (s.applyCpu e).halted = s.halted := rfl
@[simp] theorem State.applyCpu_cpu (s : State) (e : CpuEffect) : (s.applyCpu e).cpu = { pc := e.pc.getD s.cpu.pc, sp := e.sp.getD s.cpu.sp, i := e.i.getD s.cpu.i } := rfl
@[simp] theorem State.applyCpu_mem (s : State) (e : CpuEffect) : (s.applyCpu e).mem = storeAll s.mem e.stores := rfl
@[simp] theorem State.applyCpu_rom (s : State) (e : CpuEffect) : (s.applyCpu e).rom = s.rom := rfl
@[simp] theorem State.applyCpu_cfg (s : State) (e : CpuEffect) : (s.applyCpu e).cfg = s.cfg := rfl
@[simp] theorem State.applyCpu_draws (s : State) (e : CpuEffect) : (s.applyCpu e).draws = s.draws := rfl
@[simp] theorem State.applyCpu_answers (s : State) (e : CpuEffect) : (s.applyCpu e).answers = s.answers := rfl
@[simp] theorem State.applyCpu_trace (s : State) (e : CpuEffect) : (s.applyCpu e).trace = s.trace := rfl
@[simp] theorem State.applyCpu_out (s : State) (e : CpuEffect) : (s.applyCpu e).out = s.out := rfl

/-! `State.latch` -/

@[simp] theorem State.latch_cal (s : State) (l : Line) (rest : List Line) : (s.latch l rest).cal = s.cal := rfl
@[simp] theorem State.latch_run (s : State) (l : Line) (rest : List Line) : (s.latch l rest).run = s.run := rfl
@[simp] theorem State.latch_h24 (s : State) (l : Line) (rest : List Line) : (s.latch l rest).h24 = s.h24 := rfl
@[simp] theorem State.latch_vbaten (s : State) (l : Line) (rest : List Line) : (s.latch l rest).vbaten = s.vbaten := rfl
@[simp] theorem State.latch_nvram (s : State) (l : Line) (rest : List Line) : (s.latch l rest).nvram = s.nvram := rfl
@[simp] theorem State.latch_dirty (s : State) (l : Line) (rest : List Line) : (s.latch l rest).dirty = s.dirty := rfl
@[simp] theorem State.latch_buf (s : State) (l : Line) (rest : List Line) : (s.latch l rest).buf = s.buf := rfl
@[simp] theorem State.latch_txlen (s : State) (l : Line) (rest : List Line) : (s.latch l rest).txlen = s.txlen := rfl
@[simp] theorem State.latch_acc (s : State) (l : Line) (rest : List Line) : (s.latch l rest).acc = s.acc := rfl
@[simp] theorem State.latch_mclk (s : State) (l : Line) (rest : List Line) : (s.latch l rest).mclk = s.mclk := rfl
@[simp] theorem State.latch_halted (s : State) (l : Line) (rest : List Line) : (s.latch l rest).halted = s.halted := rfl
@[simp] theorem State.latch_cpu (s : State) (l : Line) (rest : List Line) : (s.latch l rest).cpu = s.cpu := rfl
@[simp] theorem State.latch_mem (s : State) (l : Line) (rest : List Line) : (s.latch l rest).mem = s.mem := rfl
@[simp] theorem State.latch_rom (s : State) (l : Line) (rest : List Line) : (s.latch l rest).rom = romAfter s.rom l.answers.newRom := rfl
@[simp] theorem State.latch_cfg (s : State) (l : Line) (rest : List Line) : (s.latch l rest).cfg = s.cfg := rfl
@[simp] theorem State.latch_draws (s : State) (l : Line) (rest : List Line) : (s.latch l rest).draws = s.draws := rfl
@[simp] theorem State.latch_answers (s : State) (l : Line) (rest : List Line) : (s.latch l rest).answers = l.answers := rfl
@[simp] theorem State.latch_trace (s : State) (l : Line) (rest : List Line) : (s.latch l rest).trace = rest := rfl
@[simp] theorem State.latch_out (s : State) (l : Line) (rest : List Line) : (s.latch l rest).out = [] := rfl

/-! `State.enqueue` -/

@[simp] theorem State.enqueue_cal (s : State) (w : OpWord) : (s.enqueue w).cal = s.cal := rfl
@[simp] theorem State.enqueue_run (s : State) (w : OpWord) : (s.enqueue w).run = s.run := rfl
@[simp] theorem State.enqueue_h24 (s : State) (w : OpWord) : (s.enqueue w).h24 = s.h24 := rfl
@[simp] theorem State.enqueue_vbaten (s : State) (w : OpWord) : (s.enqueue w).vbaten = s.vbaten := rfl
@[simp] theorem State.enqueue_nvram (s : State) (w : OpWord) : (s.enqueue w).nvram = s.nvram := rfl
@[simp] theorem State.enqueue_dirty (s : State) (w : OpWord) : (s.enqueue w).dirty = s.dirty := rfl
@[simp] theorem State.enqueue_buf (s : State) (w : OpWord) : (s.enqueue w).buf = s.buf := rfl
@[simp] theorem State.enqueue_txlen (s : State) (w : OpWord) : (s.enqueue w).txlen = s.txlen := rfl
@[simp] theorem State.enqueue_acc (s : State) (w : OpWord) : (s.enqueue w).acc = s.acc := rfl
@[simp] theorem State.enqueue_mclk (s : State) (w : OpWord) : (s.enqueue w).mclk = s.mclk := rfl
@[simp] theorem State.enqueue_halted (s : State) (w : OpWord) : (s.enqueue w).halted = s.halted := rfl
@[simp] theorem State.enqueue_cpu (s : State) (w : OpWord) : (s.enqueue w).cpu = s.cpu := rfl
@[simp] theorem State.enqueue_mem (s : State) (w : OpWord) : (s.enqueue w).mem = s.mem := rfl
@[simp] theorem State.enqueue_rom (s : State) (w : OpWord) : (s.enqueue w).rom = s.rom := rfl
@[simp] theorem State.enqueue_cfg (s : State) (w : OpWord) : (s.enqueue w).cfg = s.cfg := rfl
@[simp] theorem State.enqueue_draws (s : State) (w : OpWord) : (s.enqueue w).draws = s.draws := rfl
@[simp] theorem State.enqueue_answers (s : State) (w : OpWord) : (s.enqueue w).answers = s.answers := rfl
@[simp] theorem State.enqueue_trace (s : State) (w : OpWord) : (s.enqueue w).trace = { word := w } :: s.trace := rfl
@[simp] theorem State.enqueue_out (s : State) (w : OpWord) : (s.enqueue w).out = s.out := rfl

/-! `State.synthReturn` -/

@[simp] theorem State.synthReturn_cal (s : State) : s.synthReturn.cal = s.cal := rfl
@[simp] theorem State.synthReturn_run (s : State) : s.synthReturn.run = s.run := rfl
@[simp] theorem State.synthReturn_h24 (s : State) : s.synthReturn.h24 = s.h24 := rfl
@[simp] theorem State.synthReturn_vbaten (s : State) : s.synthReturn.vbaten = s.vbaten := rfl
@[simp] theorem State.synthReturn_nvram (s : State) : s.synthReturn.nvram = s.nvram := rfl
@[simp] theorem State.synthReturn_dirty (s : State) : s.synthReturn.dirty = s.dirty := rfl
@[simp] theorem State.synthReturn_buf (s : State) : s.synthReturn.buf = s.buf := rfl
@[simp] theorem State.synthReturn_txlen (s : State) : s.synthReturn.txlen = s.txlen := rfl
@[simp] theorem State.synthReturn_acc (s : State) : s.synthReturn.acc = s.acc := rfl
@[simp] theorem State.synthReturn_mclk (s : State) : s.synthReturn.mclk = s.mclk := rfl
@[simp] theorem State.synthReturn_halted (s : State) : s.synthReturn.halted = s.halted := rfl
@[simp] theorem State.synthReturn_mem (s : State) : s.synthReturn.mem = s.mem := rfl
@[simp] theorem State.synthReturn_rom (s : State) : s.synthReturn.rom = s.rom := rfl
@[simp] theorem State.synthReturn_cfg (s : State) : s.synthReturn.cfg = s.cfg := rfl
@[simp] theorem State.synthReturn_draws (s : State) : s.synthReturn.draws = s.draws := rfl
@[simp] theorem State.synthReturn_answers (s : State) : s.synthReturn.answers = s.answers := rfl
@[simp] theorem State.synthReturn_trace (s : State) : s.synthReturn.trace = s.trace := rfl
@[simp] theorem State.synthReturn_out (s : State) : s.synthReturn.out = s.out := rfl
@[simp] theorem State.synthReturn_i (s : State) : s.synthReturn.cpu.i = s.cpu.i := rfl
@[simp] theorem State.synthReturn_sp (s : State) :
    s.synthReturn.cpu.sp = BitVec.ofNat 8 ((s.cpu.sp.toNat + 2) % 256) := rfl
@[simp] theorem State.synthReturn_pc (s : State) :
    s.synthReturn.cpu.pc =
      afterReturnAddress (s.memRead (stackAddr s.cpu.sp 1)) (s.memRead (stackAddr s.cpu.sp 2)) := rfl

/-! `State.push`: only the buffer and its length -/

@[simp] theorem State.push_cal (s : State) (b : Byte) : (s.push b).cal = s.cal := by unfold State.push; split <;> rfl
@[simp] theorem State.push_run (s : State) (b : Byte) : (s.push b).run = s.run := by unfold State.push; split <;> rfl
@[simp] theorem State.push_h24 (s : State) (b : Byte) : (s.push b).h24 = s.h24 := by unfold State.push; split <;> rfl
@[simp] theorem State.push_vbaten (s : State) (b : Byte) : (s.push b).vbaten = s.vbaten := by unfold State.push; split <;> rfl
@[simp] theorem State.push_nvram (s : State) (b : Byte) : (s.push b).nvram = s.nvram := by unfold State.push; split <;> rfl
@[simp] theorem State.push_dirty (s : State) (b : Byte) : (s.push b).dirty = s.dirty := by unfold State.push; split <;> rfl
@[simp] theorem State.push_acc (s : State) (b : Byte) : (s.push b).acc = s.acc := by unfold State.push; split <;> rfl
@[simp] theorem State.push_mclk (s : State) (b : Byte) : (s.push b).mclk = s.mclk := by unfold State.push; split <;> rfl
@[simp] theorem State.push_halted (s : State) (b : Byte) : (s.push b).halted = s.halted := by unfold State.push; split <;> rfl
@[simp] theorem State.push_cpu (s : State) (b : Byte) : (s.push b).cpu = s.cpu := by unfold State.push; split <;> rfl
@[simp] theorem State.push_mem (s : State) (b : Byte) : (s.push b).mem = s.mem := by unfold State.push; split <;> rfl
@[simp] theorem State.push_rom (s : State) (b : Byte) : (s.push b).rom = s.rom := by unfold State.push; split <;> rfl
@[simp] theorem State.push_cfg (s : State) (b : Byte) : (s.push b).cfg = s.cfg := by unfold State.push; split <;> rfl
@[simp] theorem State.push_draws (s : State) (b : Byte) : (s.push b).draws = s.draws := by unfold State.push; split <;> rfl
@[simp] theorem State.push_answers (s : State) (b : Byte) : (s.push b).answers = s.answers := by unfold State.push; split <;> rfl
@[simp] theorem State.push_trace (s : State) (b : Byte) : (s.push b).trace = s.trace := by unfold State.push; split <;> rfl
@[simp] theorem State.push_out (s : State) (b : Byte) : (s.push b).out = s.out := by unfold State.push; split <;> rfl
@[simp] theorem State.push_txlen (s : State) (b : Byte) :
    (s.push b).txlen = if s.txlen < txCap then s.txlen + 1 else s.txlen := by unfold State.push; split <;> rfl
@[simp] theorem State.push_buf (s : State) (b : Byte) :
    (s.push b).buf = if s.txlen < txCap then s.buf.setIfInBounds s.txlen b else s.buf := by
  unfold State.push; split <;> rfl

/-! `State.stepRtc`: only the accumulator and the calendar -/

@[simp] theorem State.stepRtc_run (s : State) (n : Nat) : (s.stepRtc n).run = s.run := by
  unfold State.stepRtc; split
  · split <;> rfl
  · rfl
@[simp] theorem State.stepRtc_h24 (s : State) (n : Nat) : (s.stepRtc n).h24 = s.h24 := by
  unfold State.stepRtc; split
  · split <;> rfl
  · rfl
@[simp] theorem State.stepRtc_vbaten (s : State) (n : Nat) : (s.stepRtc n).vbaten = s.vbaten := by
  unfold State.stepRtc; split
  · split <;> rfl
  · rfl
@[simp] theorem State.stepRtc_nvram (s : State) (n : Nat) : (s.stepRtc n).nvram = s.nvram := by
  unfold State.stepRtc; split
  · split <;> rfl
  · rfl
@[simp] theorem State.stepRtc_dirty (s : State) (n : Nat) : (s.stepRtc n).dirty = s.dirty := by
  unfold State.stepRtc; split
  · split <;> rfl
  · rfl
@[simp] theorem State.stepRtc_buf (s : State) (n : Nat) : (s.stepRtc n).buf = s.buf := by
  unfold State.stepRtc; split
  · split <;> rfl
  · rfl
@[simp] theorem State.stepRtc_txlen (s : State) (n : Nat) : (s.stepRtc n).txlen = s.txlen := by
  unfold State.stepRtc; split
  · split <;> rfl
  · rfl
@[simp] theorem State.stepRtc_mclk (s : State) (n : Nat) : (s.stepRtc n).mclk = s.mclk := by
  unfold State.stepRtc; split
  · split <;> rfl
  · rfl
@[simp] theorem State.stepRtc_halted (s : State) (n : Nat) : (s.stepRtc n).halted = s.halted := by
  unfold State.stepRtc; split
  · split <;> rfl
  · rfl
@[simp] theorem State.stepRtc_cpu (s : State) (n : Nat) : (s.stepRtc n).cpu = s.cpu := by
  unfold State.stepRtc; split
  · split <;> rfl
  · rfl
@[simp] theorem State.stepRtc_mem (s : State) (n : Nat) : (s.stepRtc n).mem = s.mem := by
  unfold State.stepRtc; split
  · split <;> rfl
  · rfl
@[simp] theorem State.stepRtc_rom (s : State) (n : Nat) : (s.stepRtc n).rom = s.rom := by
  unfold State.stepRtc; split
  · split <;> rfl
  · rfl
@[simp] theorem State.stepRtc_cfg (s : State) (n : Nat) : (s.stepRtc n).cfg = s.cfg := by
  unfold State.stepRtc; split
  · split <;> rfl
  · rfl
@[simp] theorem State.stepRtc_draws (s : State) (n : Nat) : (s.stepRtc n).draws = s.draws := by
  unfold State.stepRtc; split
  · split <;> rfl
  · rfl
@[simp] theorem State.stepRtc_answers (s : State) (n : Nat) : (s.stepRtc n).answers = s.answers := by
  unfold State.stepRtc; split
  · split <;> rfl
  · rfl
@[simp] theorem State.stepRtc_trace (s : State) (n : Nat) : (s.stepRtc n).trace = s.trace := by
  unfold State.stepRtc; split
  · split <;> rfl
  · rfl
@[simp] theorem State.stepRtc_out (s : State) (n : Nat) : (s.stepRtc n).out = s.out := by
  unfold State.stepRtc; split
  · split <;> rfl
  · rfl

/-! `State.selector` and `State.writeData`: only the counter of free bytes -/

@[simp] theorem State.selector_cal (s : State) : s.selector.2.cal = s.cal := by unfold State.selector; split <;> rfl
@[simp] theorem State.selector_run (s : State) : s.selector.2.run = s.run := by unfold State.selector; split <;> rfl
@[simp] theorem State.selector_h24 (s : State) : s.selector.2.h24 = s.h24 := by unfold State.selector; split <;> rfl
@[simp] theorem State.selector_vbaten (s : State) : s.selector.2.vbaten = s.vbaten := by unfold State.selector; split <;> rfl
@[simp] theorem State.selector_nvram (s : State) : s.selector.2.nvram = s.nvram := by unfold State.selector; split <;> rfl
@[simp] theorem State.selector_dirty (s : State) : s.selector.2.dirty = s.dirty := by unfold State.selector; split <;> rfl
@[simp] theorem State.selector_buf (s : State) : s.selector.2.buf = s.buf := by unfold State.selector; split <;> rfl
@[simp] theorem State.selector_txlen (s : State) : s.selector.2.txlen = s.txlen := by unfold State.selector; split <;> rfl
@[simp] theorem State.selector_acc (s : State) : s.selector.2.acc = s.acc := by unfold State.selector; split <;> rfl
@[simp] theorem State.selector_mclk (s : State) : s.selector.2.mclk = s.mclk := by unfold State.selector; split <;> rfl
@[simp] theorem State.selector_halted (s : State) : s.selector.2.halted = s.halted := by unfold State.selector; split <;> rfl
@[simp] theorem State.selector_cpu (s : State) : s.selector.2.cpu = s.cpu := by unfold State.selector; split <;> rfl
@[simp] theorem State.selector_mem (s : State) : s.selector.2.mem = s.mem := by unfold State.selector; split <;> rfl
@[simp] theorem State.selector_rom (s : State) : s.selector.2.rom = s.rom := by unfold State.selector; split <;> rfl
@[simp] theorem State.selector_cfg (s : State) : s.selector.2.cfg = s.cfg := by unfold State.selector; split <;> rfl
@[simp] theorem State.selector_answers (s : State) : s.selector.2.answers = s.answers := by unfold State.selector; split <;> rfl
@[simp] theorem State.selector_trace (s : State) : s.selector.2.trace = s.trace := by unfold State.selector; split <;> rfl
@[simp] theorem State.selector_out (s : State) : s.selector.2.out = s.out := by unfold State.selector; split <;> rfl
@[simp] theorem State.writeData_cal (s : State) : s.writeData.2.cal = s.cal := by unfold State.writeData; split <;> rfl
@[simp] theorem State.writeData_run (s : State) : s.writeData.2.run = s.run := by unfold State.writeData; split <;> rfl
@[simp] theorem State.writeData_h24 (s : State) : s.writeData.2.h24 = s.h24 := by unfold State.writeData; split <;> rfl
@[simp] theorem State.writeData_vbaten (s : State) : s.writeData.2.vbaten = s.vbaten := by unfold State.writeData; split <;> rfl
@[simp] theorem State.writeData_nvram (s : State) : s.writeData.2.nvram = s.nvram := by unfold State.writeData; split <;> rfl
@[simp] theorem State.writeData_dirty (s : State) : s.writeData.2.dirty = s.dirty := by unfold State.writeData; split <;> rfl
@[simp] theorem State.writeData_buf (s : State) : s.writeData.2.buf = s.buf := by unfold State.writeData; split <;> rfl
@[simp] theorem State.writeData_txlen (s : State) : s.writeData.2.txlen = s.txlen := by unfold State.writeData; split <;> rfl
@[simp] theorem State.writeData_acc (s : State) : s.writeData.2.acc = s.acc := by unfold State.writeData; split <;> rfl
@[simp] theorem State.writeData_mclk (s : State) : s.writeData.2.mclk = s.mclk := by unfold State.writeData; split <;> rfl
@[simp] theorem State.writeData_halted (s : State) : s.writeData.2.halted = s.halted := by unfold State.writeData; split <;> rfl
@[simp] theorem State.writeData_cpu (s : State) : s.writeData.2.cpu = s.cpu := by unfold State.writeData; split <;> rfl
@[simp] theorem State.writeData_mem (s : State) : s.writeData.2.mem = s.mem := by unfold State.writeData; split <;> rfl
@[simp] theorem State.writeData_rom (s : State) : s.writeData.2.rom = s.rom := by unfold State.writeData; split <;> rfl
@[simp] theorem State.writeData_cfg (s : State) : s.writeData.2.cfg = s.cfg := by unfold State.writeData; split <;> rfl
@[simp] theorem State.writeData_answers (s : State) : s.writeData.2.answers = s.answers := by unfold State.writeData; split <;> rfl
@[simp] theorem State.writeData_trace (s : State) : s.writeData.2.trace = s.trace := by unfold State.writeData; split <;> rfl
@[simp] theorem State.writeData_out (s : State) : s.writeData.2.out = s.out := by unfold State.writeData; split <;> rfl

/-! `State.callNative`, `State.takeTrap` and `State.trapCheck`: the external CPU and the events -/

@[simp] theorem State.callNative_cal (s : State) (e : TrapEntry) : (s.callNative e).cal = s.cal := rfl
@[simp] theorem State.takeTrap_cal (s : State) (e : TrapEntry) : (s.takeTrap e).cal = s.cal := rfl
@[simp] theorem State.trap_cal (s : State) (e : TrapEntry) : (s.trap e).cal = s.cal := by
  unfold State.trap; split <;> rfl
@[simp] theorem State.trapCheck_cal (s : State) : s.trapCheck.cal = s.cal := by
  unfold State.trapCheck; split
  · split <;> rfl
  · rfl
@[simp] theorem State.callNative_run (s : State) (e : TrapEntry) : (s.callNative e).run = s.run := rfl
@[simp] theorem State.takeTrap_run (s : State) (e : TrapEntry) : (s.takeTrap e).run = s.run := rfl
@[simp] theorem State.trap_run (s : State) (e : TrapEntry) : (s.trap e).run = s.run := by
  unfold State.trap; split <;> rfl
@[simp] theorem State.trapCheck_run (s : State) : s.trapCheck.run = s.run := by
  unfold State.trapCheck; split
  · split <;> rfl
  · rfl
@[simp] theorem State.callNative_h24 (s : State) (e : TrapEntry) : (s.callNative e).h24 = s.h24 := rfl
@[simp] theorem State.takeTrap_h24 (s : State) (e : TrapEntry) : (s.takeTrap e).h24 = s.h24 := rfl
@[simp] theorem State.trap_h24 (s : State) (e : TrapEntry) : (s.trap e).h24 = s.h24 := by
  unfold State.trap; split <;> rfl
@[simp] theorem State.trapCheck_h24 (s : State) : s.trapCheck.h24 = s.h24 := by
  unfold State.trapCheck; split
  · split <;> rfl
  · rfl
@[simp] theorem State.callNative_vbaten (s : State) (e : TrapEntry) : (s.callNative e).vbaten = s.vbaten := rfl
@[simp] theorem State.takeTrap_vbaten (s : State) (e : TrapEntry) : (s.takeTrap e).vbaten = s.vbaten := rfl
@[simp] theorem State.trap_vbaten (s : State) (e : TrapEntry) : (s.trap e).vbaten = s.vbaten := by
  unfold State.trap; split <;> rfl
@[simp] theorem State.trapCheck_vbaten (s : State) : s.trapCheck.vbaten = s.vbaten := by
  unfold State.trapCheck; split
  · split <;> rfl
  · rfl
@[simp] theorem State.callNative_nvram (s : State) (e : TrapEntry) : (s.callNative e).nvram = s.nvram := rfl
@[simp] theorem State.takeTrap_nvram (s : State) (e : TrapEntry) : (s.takeTrap e).nvram = s.nvram := rfl
@[simp] theorem State.trap_nvram (s : State) (e : TrapEntry) : (s.trap e).nvram = s.nvram := by
  unfold State.trap; split <;> rfl
@[simp] theorem State.trapCheck_nvram (s : State) : s.trapCheck.nvram = s.nvram := by
  unfold State.trapCheck; split
  · split <;> rfl
  · rfl
@[simp] theorem State.callNative_dirty (s : State) (e : TrapEntry) : (s.callNative e).dirty = s.dirty := rfl
@[simp] theorem State.takeTrap_dirty (s : State) (e : TrapEntry) : (s.takeTrap e).dirty = s.dirty := rfl
@[simp] theorem State.trap_dirty (s : State) (e : TrapEntry) : (s.trap e).dirty = s.dirty := by
  unfold State.trap; split <;> rfl
@[simp] theorem State.trapCheck_dirty (s : State) : s.trapCheck.dirty = s.dirty := by
  unfold State.trapCheck; split
  · split <;> rfl
  · rfl
@[simp] theorem State.callNative_buf (s : State) (e : TrapEntry) : (s.callNative e).buf = s.buf := rfl
@[simp] theorem State.takeTrap_buf (s : State) (e : TrapEntry) : (s.takeTrap e).buf = s.buf := rfl
@[simp] theorem State.trap_buf (s : State) (e : TrapEntry) : (s.trap e).buf = s.buf := by
  unfold State.trap; split <;> rfl
@[simp] theorem State.trapCheck_buf (s : State) : s.trapCheck.buf = s.buf := by
  unfold State.trapCheck; split
  · split <;> rfl
  · rfl
@[simp] theorem State.callNative_txlen (s : State) (e : TrapEntry) : (s.callNative e).txlen = s.txlen := rfl
@[simp] theorem State.takeTrap_txlen (s : State) (e : TrapEntry) : (s.takeTrap e).txlen = s.txlen := rfl
@[simp] theorem State.trap_txlen (s : State) (e : TrapEntry) : (s.trap e).txlen = s.txlen := by
  unfold State.trap; split <;> rfl
@[simp] theorem State.trapCheck_txlen (s : State) : s.trapCheck.txlen = s.txlen := by
  unfold State.trapCheck; split
  · split <;> rfl
  · rfl
@[simp] theorem State.callNative_acc (s : State) (e : TrapEntry) : (s.callNative e).acc = s.acc := rfl
@[simp] theorem State.takeTrap_acc (s : State) (e : TrapEntry) : (s.takeTrap e).acc = s.acc := rfl
@[simp] theorem State.trap_acc (s : State) (e : TrapEntry) : (s.trap e).acc = s.acc := by
  unfold State.trap; split <;> rfl
@[simp] theorem State.trapCheck_acc (s : State) : s.trapCheck.acc = s.acc := by
  unfold State.trapCheck; split
  · split <;> rfl
  · rfl
@[simp] theorem State.callNative_mclk (s : State) (e : TrapEntry) : (s.callNative e).mclk = s.mclk := rfl
@[simp] theorem State.takeTrap_mclk (s : State) (e : TrapEntry) : (s.takeTrap e).mclk = s.mclk := rfl
@[simp] theorem State.trap_mclk (s : State) (e : TrapEntry) : (s.trap e).mclk = s.mclk := by
  unfold State.trap; split <;> rfl
@[simp] theorem State.trapCheck_mclk (s : State) : s.trapCheck.mclk = s.mclk := by
  unfold State.trapCheck; split
  · split <;> rfl
  · rfl
@[simp] theorem State.callNative_halted (s : State) (e : TrapEntry) : (s.callNative e).halted = s.halted := rfl
@[simp] theorem State.takeTrap_halted (s : State) (e : TrapEntry) : (s.takeTrap e).halted = s.halted := rfl
@[simp] theorem State.trap_halted (s : State) (e : TrapEntry) : (s.trap e).halted = s.halted := by
  unfold State.trap; split <;> rfl
@[simp] theorem State.trapCheck_halted (s : State) : s.trapCheck.halted = s.halted := by
  unfold State.trapCheck; split
  · split <;> rfl
  · rfl
@[simp] theorem State.callNative_rom (s : State) (e : TrapEntry) : (s.callNative e).rom = s.rom := rfl
@[simp] theorem State.takeTrap_rom (s : State) (e : TrapEntry) : (s.takeTrap e).rom = s.rom := rfl
@[simp] theorem State.trap_rom (s : State) (e : TrapEntry) : (s.trap e).rom = s.rom := by
  unfold State.trap; split <;> rfl
@[simp] theorem State.trapCheck_rom (s : State) : s.trapCheck.rom = s.rom := by
  unfold State.trapCheck; split
  · split <;> rfl
  · rfl
@[simp] theorem State.callNative_cfg (s : State) (e : TrapEntry) : (s.callNative e).cfg = s.cfg := rfl
@[simp] theorem State.takeTrap_cfg (s : State) (e : TrapEntry) : (s.takeTrap e).cfg = s.cfg := rfl
@[simp] theorem State.trap_cfg (s : State) (e : TrapEntry) : (s.trap e).cfg = s.cfg := by
  unfold State.trap; split <;> rfl
@[simp] theorem State.trapCheck_cfg (s : State) : s.trapCheck.cfg = s.cfg := by
  unfold State.trapCheck; split
  · split <;> rfl
  · rfl
@[simp] theorem State.callNative_draws (s : State) (e : TrapEntry) : (s.callNative e).draws = s.draws := rfl
@[simp] theorem State.takeTrap_draws (s : State) (e : TrapEntry) : (s.takeTrap e).draws = s.draws := rfl
@[simp] theorem State.trap_draws (s : State) (e : TrapEntry) : (s.trap e).draws = s.draws := by
  unfold State.trap; split <;> rfl
@[simp] theorem State.trapCheck_draws (s : State) : s.trapCheck.draws = s.draws := by
  unfold State.trapCheck; split
  · split <;> rfl
  · rfl
@[simp] theorem State.callNative_answers (s : State) (e : TrapEntry) : (s.callNative e).answers = s.answers := rfl
@[simp] theorem State.takeTrap_answers (s : State) (e : TrapEntry) : (s.takeTrap e).answers = s.answers := rfl
@[simp] theorem State.trap_answers (s : State) (e : TrapEntry) : (s.trap e).answers = s.answers := by
  unfold State.trap; split <;> rfl
@[simp] theorem State.trapCheck_answers (s : State) : s.trapCheck.answers = s.answers := by
  unfold State.trapCheck; split
  · split <;> rfl
  · rfl
@[simp] theorem State.callNative_trace (s : State) (e : TrapEntry) : (s.callNative e).trace = s.trace := rfl
@[simp] theorem State.takeTrap_trace (s : State) (e : TrapEntry) : (s.takeTrap e).trace = s.trace := rfl
@[simp] theorem State.trap_trace (s : State) (e : TrapEntry) : (s.trap e).trace = s.trace := by
  unfold State.trap; split <;> rfl
@[simp] theorem State.trapCheck_trace (s : State) : s.trapCheck.trace = s.trace := by
  unfold State.trapCheck; split
  · split <;> rfl
  · rfl

/-! `State.assertIrq` and `iterTail`: the external CPU, the events, and `halted` -/

@[simp] theorem State.assertIrq_cal (s : State) : s.assertIrq.cal = s.cal := by unfold State.assertIrq; split <;> rfl
@[simp] theorem State.assertIrq_run (s : State) : s.assertIrq.run = s.run := by unfold State.assertIrq; split <;> rfl
@[simp] theorem State.assertIrq_h24 (s : State) : s.assertIrq.h24 = s.h24 := by unfold State.assertIrq; split <;> rfl
@[simp] theorem State.assertIrq_vbaten (s : State) : s.assertIrq.vbaten = s.vbaten := by unfold State.assertIrq; split <;> rfl
@[simp] theorem State.assertIrq_nvram (s : State) : s.assertIrq.nvram = s.nvram := by unfold State.assertIrq; split <;> rfl
@[simp] theorem State.assertIrq_dirty (s : State) : s.assertIrq.dirty = s.dirty := by unfold State.assertIrq; split <;> rfl
@[simp] theorem State.assertIrq_buf (s : State) : s.assertIrq.buf = s.buf := by unfold State.assertIrq; split <;> rfl
@[simp] theorem State.assertIrq_txlen (s : State) : s.assertIrq.txlen = s.txlen := by unfold State.assertIrq; split <;> rfl
@[simp] theorem State.assertIrq_acc (s : State) : s.assertIrq.acc = s.acc := by unfold State.assertIrq; split <;> rfl
@[simp] theorem State.assertIrq_mclk (s : State) : s.assertIrq.mclk = s.mclk := by unfold State.assertIrq; split <;> rfl
@[simp] theorem State.assertIrq_halted (s : State) : s.assertIrq.halted = s.halted := by unfold State.assertIrq; split <;> rfl
@[simp] theorem State.assertIrq_rom (s : State) : s.assertIrq.rom = s.rom := by unfold State.assertIrq; split <;> rfl
@[simp] theorem State.assertIrq_cfg (s : State) : s.assertIrq.cfg = s.cfg := by unfold State.assertIrq; split <;> rfl
@[simp] theorem State.assertIrq_draws (s : State) : s.assertIrq.draws = s.draws := by unfold State.assertIrq; split <;> rfl
@[simp] theorem State.assertIrq_answers (s : State) : s.assertIrq.answers = s.answers := by unfold State.assertIrq; split <;> rfl
@[simp] theorem State.assertIrq_trace (s : State) : s.assertIrq.trace = s.trace := by unfold State.assertIrq; split <;> rfl
@[simp] theorem iterTail_cal (fr : Bool) (s : State) : (iterTail fr s).cal = s.cal := by
  unfold iterTail; split
  · split <;> simp
  · rfl
@[simp] theorem iterTail_run (fr : Bool) (s : State) : (iterTail fr s).run = s.run := by
  unfold iterTail; split
  · split <;> simp
  · rfl
@[simp] theorem iterTail_h24 (fr : Bool) (s : State) : (iterTail fr s).h24 = s.h24 := by
  unfold iterTail; split
  · split <;> simp
  · rfl
@[simp] theorem iterTail_vbaten (fr : Bool) (s : State) : (iterTail fr s).vbaten = s.vbaten := by
  unfold iterTail; split
  · split <;> simp
  · rfl
@[simp] theorem iterTail_nvram (fr : Bool) (s : State) : (iterTail fr s).nvram = s.nvram := by
  unfold iterTail; split
  · split <;> simp
  · rfl
@[simp] theorem iterTail_dirty (fr : Bool) (s : State) : (iterTail fr s).dirty = s.dirty := by
  unfold iterTail; split
  · split <;> simp
  · rfl
@[simp] theorem iterTail_buf (fr : Bool) (s : State) : (iterTail fr s).buf = s.buf := by
  unfold iterTail; split
  · split <;> simp
  · rfl
@[simp] theorem iterTail_txlen (fr : Bool) (s : State) : (iterTail fr s).txlen = s.txlen := by
  unfold iterTail; split
  · split <;> simp
  · rfl
@[simp] theorem iterTail_acc (fr : Bool) (s : State) : (iterTail fr s).acc = s.acc := by
  unfold iterTail; split
  · split <;> simp
  · rfl
@[simp] theorem iterTail_mclk (fr : Bool) (s : State) : (iterTail fr s).mclk = s.mclk := by
  unfold iterTail; split
  · split <;> simp
  · rfl
@[simp] theorem iterTail_rom (fr : Bool) (s : State) : (iterTail fr s).rom = s.rom := by
  unfold iterTail; split
  · split <;> simp
  · rfl
@[simp] theorem iterTail_cfg (fr : Bool) (s : State) : (iterTail fr s).cfg = s.cfg := by
  unfold iterTail; split
  · split <;> simp
  · rfl
@[simp] theorem iterTail_draws (fr : Bool) (s : State) : (iterTail fr s).draws = s.draws := by
  unfold iterTail; split
  · split <;> simp
  · rfl
@[simp] theorem iterTail_answers (fr : Bool) (s : State) : (iterTail fr s).answers = s.answers := by
  unfold iterTail; split
  · split <;> simp
  · rfl
@[simp] theorem iterTail_trace (fr : Bool) (s : State) : (iterTail fr s).trace = s.trace := by
  unfold iterTail; split
  · split <;> simp
  · rfl

/-! `State.cycle`: only the calendar's registers, the accumulator and the events -/

@[simp] theorem State.cycle_run (s : State) : s.cycle.run = s.run := by simp [State.cycle]
@[simp] theorem State.cycle_h24 (s : State) : s.cycle.h24 = s.h24 := by simp [State.cycle]
@[simp] theorem State.cycle_vbaten (s : State) : s.cycle.vbaten = s.vbaten := by simp [State.cycle]
@[simp] theorem State.cycle_nvram (s : State) : s.cycle.nvram = s.nvram := by simp [State.cycle]
@[simp] theorem State.cycle_dirty (s : State) : s.cycle.dirty = s.dirty := by simp [State.cycle]
@[simp] theorem State.cycle_buf (s : State) : s.cycle.buf = s.buf := by simp [State.cycle]
@[simp] theorem State.cycle_txlen (s : State) : s.cycle.txlen = s.txlen := by simp [State.cycle]
@[simp] theorem State.cycle_mclk (s : State) : s.cycle.mclk = s.mclk := by simp [State.cycle]
@[simp] theorem State.cycle_halted (s : State) : s.cycle.halted = s.halted := by simp [State.cycle]
@[simp] theorem State.cycle_cpu (s : State) : s.cycle.cpu = s.cpu := by simp [State.cycle]
@[simp] theorem State.cycle_mem (s : State) : s.cycle.mem = s.mem := by simp [State.cycle]
@[simp] theorem State.cycle_rom (s : State) : s.cycle.rom = s.rom := by simp [State.cycle]
@[simp] theorem State.cycle_cfg (s : State) : s.cycle.cfg = s.cfg := by simp [State.cycle]
@[simp] theorem State.cycle_draws (s : State) : s.cycle.draws = s.draws := by simp [State.cycle]
@[simp] theorem State.cycle_answers (s : State) : s.cycle.answers = s.answers := by simp [State.cycle]
@[simp] theorem State.cycle_trace (s : State) : s.cycle.trace = s.trace := by simp [State.cycle]

/-! `fanOut` -/

@[simp] theorem fanOut_run (n : Nat) (fs : List Bool) (fr : Bool) (s : State) : (fanOut n fs fr s).2.run = s.run := by
  induction n generalizing fs fr s with
  | zero => rfl
  | succ n ih => simp [fanOut, ih]
@[simp] theorem fanOut_h24 (n : Nat) (fs : List Bool) (fr : Bool) (s : State) : (fanOut n fs fr s).2.h24 = s.h24 := by
  induction n generalizing fs fr s with
  | zero => rfl
  | succ n ih => simp [fanOut, ih]
@[simp] theorem fanOut_vbaten (n : Nat) (fs : List Bool) (fr : Bool) (s : State) : (fanOut n fs fr s).2.vbaten = s.vbaten := by
  induction n generalizing fs fr s with
  | zero => rfl
  | succ n ih => simp [fanOut, ih]
@[simp] theorem fanOut_nvram (n : Nat) (fs : List Bool) (fr : Bool) (s : State) : (fanOut n fs fr s).2.nvram = s.nvram := by
  induction n generalizing fs fr s with
  | zero => rfl
  | succ n ih => simp [fanOut, ih]
@[simp] theorem fanOut_dirty (n : Nat) (fs : List Bool) (fr : Bool) (s : State) : (fanOut n fs fr s).2.dirty = s.dirty := by
  induction n generalizing fs fr s with
  | zero => rfl
  | succ n ih => simp [fanOut, ih]
@[simp] theorem fanOut_buf (n : Nat) (fs : List Bool) (fr : Bool) (s : State) : (fanOut n fs fr s).2.buf = s.buf := by
  induction n generalizing fs fr s with
  | zero => rfl
  | succ n ih => simp [fanOut, ih]
@[simp] theorem fanOut_txlen (n : Nat) (fs : List Bool) (fr : Bool) (s : State) : (fanOut n fs fr s).2.txlen = s.txlen := by
  induction n generalizing fs fr s with
  | zero => rfl
  | succ n ih => simp [fanOut, ih]
@[simp] theorem fanOut_mclk (n : Nat) (fs : List Bool) (fr : Bool) (s : State) : (fanOut n fs fr s).2.mclk = s.mclk := by
  induction n generalizing fs fr s with
  | zero => rfl
  | succ n ih => simp [fanOut, ih]
@[simp] theorem fanOut_halted (n : Nat) (fs : List Bool) (fr : Bool) (s : State) : (fanOut n fs fr s).2.halted = s.halted := by
  induction n generalizing fs fr s with
  | zero => rfl
  | succ n ih => simp [fanOut, ih]
@[simp] theorem fanOut_cpu (n : Nat) (fs : List Bool) (fr : Bool) (s : State) : (fanOut n fs fr s).2.cpu = s.cpu := by
  induction n generalizing fs fr s with
  | zero => rfl
  | succ n ih => simp [fanOut, ih]
@[simp] theorem fanOut_mem (n : Nat) (fs : List Bool) (fr : Bool) (s : State) : (fanOut n fs fr s).2.mem = s.mem := by
  induction n generalizing fs fr s with
  | zero => rfl
  | succ n ih => simp [fanOut, ih]
@[simp] theorem fanOut_rom (n : Nat) (fs : List Bool) (fr : Bool) (s : State) : (fanOut n fs fr s).2.rom = s.rom := by
  induction n generalizing fs fr s with
  | zero => rfl
  | succ n ih => simp [fanOut, ih]
@[simp] theorem fanOut_cfg (n : Nat) (fs : List Bool) (fr : Bool) (s : State) : (fanOut n fs fr s).2.cfg = s.cfg := by
  induction n generalizing fs fr s with
  | zero => rfl
  | succ n ih => simp [fanOut, ih]
@[simp] theorem fanOut_draws (n : Nat) (fs : List Bool) (fr : Bool) (s : State) : (fanOut n fs fr s).2.draws = s.draws := by
  induction n generalizing fs fr s with
  | zero => rfl
  | succ n ih => simp [fanOut, ih]
@[simp] theorem fanOut_answers (n : Nat) (fs : List Bool) (fr : Bool) (s : State) : (fanOut n fs fr s).2.answers = s.answers := by
  induction n generalizing fs fr s with
  | zero => rfl
  | succ n ih => simp [fanOut, ih]
@[simp] theorem fanOut_trace (n : Nat) (fs : List Bool) (fr : Bool) (s : State) : (fanOut n fs fr s).2.trace = s.trace := by
  induction n generalizing fs fr s with
  | zero => rfl
  | succ n ih => simp [fanOut, ih]

end Sys2Proof.Machine
end

