-- ==== Sys2Proof/Laws/Ops.lean ====
section
/-! SUPPORT. For each shared operation, one lemma that says everything it can do: the writes of the register boundary,
the bus operations, the fan-out, the iteration. -/

namespace Sys2Proof.Machine

/-! ## Sequencing -/

theorem andThen_eq_next {r : Result} {f : State → Result} {t : State} :
    andThen r f = .next t ↔ ∃ s, r = .next s ∧ f s = .next t := by
  cases r <;> simp [andThen]

/-! ## The writes of the register boundary -/

/-- What `write_reg` can do: store through one of the ten writes; an NVRAM store stays inside the 64 bytes. -/
theorem writeReg_cases (sel d : Byte) (s : State) :
    writeReg sel d s = writeSec d s ∨ writeReg sel d s = writeMin d s ∨ writeReg sel d s = writeHour d s ∨
    writeReg sel d s = writeWkday d s ∨ writeReg sel d s = writeDay d s ∨ writeReg sel d s = writeMonth d s ∨
    writeReg sel d s = writeYear d s ∨ writeReg sel d s = s ∨
    ∃ k, k < nvSize ∧ writeReg sel d s = writeNv k d s := by
  unfold writeReg
  by_cases h0 : sel.toNat = 0x00
  · simp [h0]
  by_cases h1 : sel.toNat = 0x01
  · simp [h1]
  by_cases h2 : sel.toNat = 0x02
  · simp [h2]
  by_cases h3 : sel.toNat = 0x03
  · simp [h3]
  by_cases h4 : sel.toNat = 0x04
  · simp [h4]
  by_cases h5 : sel.toNat = 0x05
  · simp [h5]
  by_cases h6 : sel.toNat = 0x06
  · simp [h6]
  simp only [h0, h1, h2, h3, h4, h5, h6, if_false]
  split
  · simp [writeLow]
  · split
    · rename_i _ h
      exact .inr (.inr (.inr (.inr (.inr (.inr (.inr (.inr ⟨sel.toNat - nvBase, by simp only [nvBase, nvSize]; omega, rfl⟩)))))))
    · simp [writeHigh]

theorem writeHour_cases (d : Byte) (s : State) :
    writeHour d s = writeHour12 d s ∨ writeHour d s = writeHour24 d s := by
  unfold writeHour; split
  · exact .inl rfl
  · exact .inr rfl

@[simp] theorem writeReg_buf (sel d : Byte) (s : State) : (writeReg sel d s).buf = s.buf := by
  rcases writeReg_cases sel d s with h | h | h | h | h | h | h | h | ⟨k, _, h⟩ <;> rw [h] <;> try rfl
  rcases writeHour_cases d s with h | h <;> rw [h] <;> rfl
@[simp] theorem writeReg_txlen (sel d : Byte) (s : State) : (writeReg sel d s).txlen = s.txlen := by
  rcases writeReg_cases sel d s with h | h | h | h | h | h | h | h | ⟨k, _, h⟩ <;> rw [h] <;> try rfl
  rcases writeHour_cases d s with h | h <;> rw [h] <;> rfl
@[simp] theorem writeReg_acc (sel d : Byte) (s : State) : (writeReg sel d s).acc = s.acc := by
  rcases writeReg_cases sel d s with h | h | h | h | h | h | h | h | ⟨k, _, h⟩ <;> rw [h] <;> try rfl
  rcases writeHour_cases d s with h | h <;> rw [h] <;> rfl
@[simp] theorem writeReg_mclk (sel d : Byte) (s : State) : (writeReg sel d s).mclk = s.mclk := by
  rcases writeReg_cases sel d s with h | h | h | h | h | h | h | h | ⟨k, _, h⟩ <;> rw [h] <;> try rfl
  rcases writeHour_cases d s with h | h <;> rw [h] <;> rfl
@[simp] theorem writeReg_halted (sel d : Byte) (s : State) : (writeReg sel d s).halted = s.halted := by
  rcases writeReg_cases sel d s with h | h | h | h | h | h | h | h | ⟨k, _, h⟩ <;> rw [h] <;> try rfl
  rcases writeHour_cases d s with h | h <;> rw [h] <;> rfl
@[simp] theorem writeReg_cpu (sel d : Byte) (s : State) : (writeReg sel d s).cpu = s.cpu := by
  rcases writeReg_cases sel d s with h | h | h | h | h | h | h | h | ⟨k, _, h⟩ <;> rw [h] <;> try rfl
  rcases writeHour_cases d s with h | h <;> rw [h] <;> rfl
@[simp] theorem writeReg_mem (sel d : Byte) (s : State) : (writeReg sel d s).mem = s.mem := by
  rcases writeReg_cases sel d s with h | h | h | h | h | h | h | h | ⟨k, _, h⟩ <;> rw [h] <;> try rfl
  rcases writeHour_cases d s with h | h <;> rw [h] <;> rfl
@[simp] theorem writeReg_rom (sel d : Byte) (s : State) : (writeReg sel d s).rom = s.rom := by
  rcases writeReg_cases sel d s with h | h | h | h | h | h | h | h | ⟨k, _, h⟩ <;> rw [h] <;> try rfl
  rcases writeHour_cases d s with h | h <;> rw [h] <;> rfl
@[simp] theorem writeReg_cfg (sel d : Byte) (s : State) : (writeReg sel d s).cfg = s.cfg := by
  rcases writeReg_cases sel d s with h | h | h | h | h | h | h | h | ⟨k, _, h⟩ <;> rw [h] <;> try rfl
  rcases writeHour_cases d s with h | h <;> rw [h] <;> rfl
@[simp] theorem writeReg_draws (sel d : Byte) (s : State) : (writeReg sel d s).draws = s.draws := by
  rcases writeReg_cases sel d s with h | h | h | h | h | h | h | h | ⟨k, _, h⟩ <;> rw [h] <;> try rfl
  rcases writeHour_cases d s with h | h <;> rw [h] <;> rfl
@[simp] theorem writeReg_answers (sel d : Byte) (s : State) : (writeReg sel d s).answers = s.answers := by
  rcases writeReg_cases sel d s with h | h | h | h | h | h | h | h | ⟨k, _, h⟩ <;> rw [h] <;> try rfl
  rcases writeHour_cases d s with h | h <;> rw [h] <;> rfl
@[simp] theorem writeReg_trace (sel d : Byte) (s : State) : (writeReg sel d s).trace = s.trace := by
  rcases writeReg_cases sel d s with h | h | h | h | h | h | h | h | ⟨k, _, h⟩ <;> rw [h] <;> try rfl
  rcases writeHour_cases d s with h | h <;> rw [h] <;> rfl
@[simp] theorem writeReg_out (sel d : Byte) (s : State) : (writeReg sel d s).out = s.out := by
  rcases writeReg_cases sel d s with h | h | h | h | h | h | h | h | ⟨k, _, h⟩ <;> rw [h] <;> try rfl
  rcases writeHour_cases d s with h | h <;> rw [h] <;> rfl

/-- A write of the register boundary keeps NVRAM canonical and inside its 64 bytes. -/
theorem writeReg_nvram_ok {s : State} (h : s.nvram.wf = true ∧ s.nvram.below nvSize = true) (sel d : Byte) :
    (writeReg sel d s).nvram.wf = true ∧ (writeReg sel d s).nvram.below nvSize = true := by
  rcases writeReg_cases sel d s with e | e | e | e | e | e | e | e | ⟨k, hk, e⟩ <;> rw [e] <;> try exact h
  · rcases writeHour_cases d s with e | e <;> rw [e] <;> exact h
  · exact ⟨Memory.wf_write h.1 k d, Memory.below_write h.2 hk d⟩

/-! ## Reads and writes as transactions -/

/-- What `RD` can do. -/
theorem busRead_next {s t : State} (h : s.busRead = .next t) :
    (1 ≤ s.txlen ∧ t = s.finishRead (readReg s.buf[0] s)) ∨
    (s.txlen = 0 ∧ s.cfg.txnUnderflow = .draw ∧ t = s.drawByte.2.finishRead s.drawByte.1) := by
  unfold State.busRead at h
  split at h
  · rename_i h1
    exact .inl ⟨h1, by simpa using h.symm⟩
  · rename_i h1
    split at h
    · cases h
    · rename_i h2
      exact .inr ⟨by omega, h2, by simpa using h.symm⟩

/-- What `WR` can do. -/
theorem busWrite_next {s t : State} (h : s.busWrite = .next t) :
    t = s.performWrite ∧ (2 ≤ s.txlen ∨ s.cfg.txnUnderflow = .draw) := by
  unfold State.busWrite at h
  split at h
  · rename_i h1
    exact ⟨by simpa using h.symm, .inl h1⟩
  · split at h
    · cases h
    · rename_i h2
      exact ⟨by simpa using h.symm, .inr h2⟩


@[simp] theorem performWrite_buf (s : State) : s.performWrite.buf = s.buf := by
  simp [State.performWrite, State.finishWrite]
@[simp] theorem performWrite_acc (s : State) : s.performWrite.acc = s.acc := by
  simp [State.performWrite, State.finishWrite]
@[simp] theorem performWrite_mclk (s : State) : s.performWrite.mclk = s.mclk := by
  simp [State.performWrite, State.finishWrite]
@[simp] theorem performWrite_halted (s : State) : s.performWrite.halted = s.halted := by
  simp [State.performWrite, State.finishWrite]
@[simp] theorem performWrite_cpu (s : State) : s.performWrite.cpu = s.cpu := by
  simp [State.performWrite, State.finishWrite]
@[simp] theorem performWrite_mem (s : State) : s.performWrite.mem = s.mem := by
  simp [State.performWrite, State.finishWrite]
@[simp] theorem performWrite_rom (s : State) : s.performWrite.rom = s.rom := by
  simp [State.performWrite, State.finishWrite]
@[simp] theorem performWrite_cfg (s : State) : s.performWrite.cfg = s.cfg := by
  simp [State.performWrite, State.finishWrite]
@[simp] theorem performWrite_answers (s : State) : s.performWrite.answers = s.answers := by
  simp [State.performWrite, State.finishWrite]
@[simp] theorem performWrite_trace (s : State) : s.performWrite.trace = s.trace := by
  simp [State.performWrite, State.finishWrite]
@[simp] theorem performWrite_out (s : State) : s.performWrite.out = s.out := by
  simp [State.performWrite, State.finishWrite]
@[simp] theorem performWrite_txlen (s : State) : s.performWrite.txlen = 0 := rfl

theorem performWrite_nvram_ok {s : State} (h : s.nvram.wf = true ∧ s.nvram.below nvSize = true) :
    s.performWrite.nvram.wf = true ∧ s.performWrite.nvram.below nvSize = true := by
  unfold State.performWrite State.finishWrite
  simp only [State.endTxn_nvram]
  exact writeReg_nvram_ok (by simpa using h) _ _

/-! ## Bus operations: what they leave alone -/

theorem busOp_acc {o : BusOp} {s t : State} (h : busOp o s = .next t) : t.acc = s.acc := by
  cases o with
  | din b => cases h; simp
  | rd => rcases busRead_next h with ⟨_, rfl⟩ | ⟨_, _, rfl⟩ <;> simp
  | wr => obtain ⟨rfl, _⟩ := busWrite_next h; simp
theorem busOp_mclk {o : BusOp} {s t : State} (h : busOp o s = .next t) : t.mclk = s.mclk := by
  cases o with
  | din b => cases h; simp
  | rd => rcases busRead_next h with ⟨_, rfl⟩ | ⟨_, _, rfl⟩ <;> simp
  | wr => obtain ⟨rfl, _⟩ := busWrite_next h; simp
theorem busOp_halted {o : BusOp} {s t : State} (h : busOp o s = .next t) : t.halted = s.halted := by
  cases o with
  | din b => cases h; simp
  | rd => rcases busRead_next h with ⟨_, rfl⟩ | ⟨_, _, rfl⟩ <;> simp
  | wr => obtain ⟨rfl, _⟩ := busWrite_next h; simp
theorem busOp_cpu {o : BusOp} {s t : State} (h : busOp o s = .next t) : t.cpu = s.cpu := by
  cases o with
  | din b => cases h; simp
  | rd => rcases busRead_next h with ⟨_, rfl⟩ | ⟨_, _, rfl⟩ <;> simp
  | wr => obtain ⟨rfl, _⟩ := busWrite_next h; simp
theorem busOp_mem {o : BusOp} {s t : State} (h : busOp o s = .next t) : t.mem = s.mem := by
  cases o with
  | din b => cases h; simp
  | rd => rcases busRead_next h with ⟨_, rfl⟩ | ⟨_, _, rfl⟩ <;> simp
  | wr => obtain ⟨rfl, _⟩ := busWrite_next h; simp
theorem busOp_rom {o : BusOp} {s t : State} (h : busOp o s = .next t) : t.rom = s.rom := by
  cases o with
  | din b => cases h; simp
  | rd => rcases busRead_next h with ⟨_, rfl⟩ | ⟨_, _, rfl⟩ <;> simp
  | wr => obtain ⟨rfl, _⟩ := busWrite_next h; simp
theorem busOp_cfg {o : BusOp} {s t : State} (h : busOp o s = .next t) : t.cfg = s.cfg := by
  cases o with
  | din b => cases h; simp
  | rd => rcases busRead_next h with ⟨_, rfl⟩ | ⟨_, _, rfl⟩ <;> simp
  | wr => obtain ⟨rfl, _⟩ := busWrite_next h; simp
theorem busOp_answers {o : BusOp} {s t : State} (h : busOp o s = .next t) : t.answers = s.answers := by
  cases o with
  | din b => cases h; simp
  | rd => rcases busRead_next h with ⟨_, rfl⟩ | ⟨_, _, rfl⟩ <;> simp
  | wr => obtain ⟨rfl, _⟩ := busWrite_next h; simp
theorem busOp_trace {o : BusOp} {s t : State} (h : busOp o s = .next t) : t.trace = s.trace := by
  cases o with
  | din b => cases h; simp
  | rd => rcases busRead_next h with ⟨_, rfl⟩ | ⟨_, _, rfl⟩ <;> simp
  | wr => obtain ⟨rfl, _⟩ := busWrite_next h; simp

theorem runBus_acc {os : List BusOp} {s t : State} (h : runBus os s = .next t) : t.acc = s.acc := by
  induction os generalizing s with
  | nil => cases h; rfl
  | cons o os ih =>
    obtain ⟨u, hu, ht⟩ := andThen_eq_next.mp h
    rw [ih ht, busOp_acc hu]
theorem runBus_mclk {os : List BusOp} {s t : State} (h : runBus os s = .next t) : t.mclk = s.mclk := by
  induction os generalizing s with
  | nil => cases h; rfl
  | cons o os ih =>
    obtain ⟨u, hu, ht⟩ := andThen_eq_next.mp h
    rw [ih ht, busOp_mclk hu]
theorem runBus_halted {os : List BusOp} {s t : State} (h : runBus os s = .next t) : t.halted = s.halted := by
  induction os generalizing s with
  | nil => cases h; rfl
  | cons o os ih =>
    obtain ⟨u, hu, ht⟩ := andThen_eq_next.mp h
    rw [ih ht, busOp_halted hu]
theorem runBus_cpu {os : List BusOp} {s t : State} (h : runBus os s = .next t) : t.cpu = s.cpu := by
  induction os generalizing s with
  | nil => cases h; rfl
  | cons o os ih =>
    obtain ⟨u, hu, ht⟩ := andThen_eq_next.mp h
    rw [ih ht, busOp_cpu hu]
theorem runBus_mem {os : List BusOp} {s t : State} (h : runBus os s = .next t) : t.mem = s.mem := by
  induction os generalizing s with
  | nil => cases h; rfl
  | cons o os ih =>
    obtain ⟨u, hu, ht⟩ := andThen_eq_next.mp h
    rw [ih ht, busOp_mem hu]
theorem runBus_rom {os : List BusOp} {s t : State} (h : runBus os s = .next t) : t.rom = s.rom := by
  induction os generalizing s with
  | nil => cases h; rfl
  | cons o os ih =>
    obtain ⟨u, hu, ht⟩ := andThen_eq_next.mp h
    rw [ih ht, busOp_rom hu]
theorem runBus_cfg {os : List BusOp} {s t : State} (h : runBus os s = .next t) : t.cfg = s.cfg := by
  induction os generalizing s with
  | nil => cases h; rfl
  | cons o os ih =>
    obtain ⟨u, hu, ht⟩ := andThen_eq_next.mp h
    rw [ih ht, busOp_cfg hu]
theorem runBus_answers {os : List BusOp} {s t : State} (h : runBus os s = .next t) : t.answers = s.answers := by
  induction os generalizing s with
  | nil => cases h; rfl
  | cons o os ih =>
    obtain ⟨u, hu, ht⟩ := andThen_eq_next.mp h
    rw [ih ht, busOp_answers hu]
theorem runBus_trace {os : List BusOp} {s t : State} (h : runBus os s = .next t) : t.trace = s.trace := by
  induction os generalizing s with
  | nil => cases h; rfl
  | cons o os ih =>
    obtain ⟨u, hu, ht⟩ := andThen_eq_next.mp h
    rw [ih ht, busOp_trace hu]

/-- A bus operation keeps NVRAM canonical and inside its 64 bytes, and the buffer's length. -/
theorem busOp_ok {o : BusOp} {s t : State} (h : busOp o s = .next t)
    (hs : (s.nvram.wf = true ∧ s.nvram.below nvSize = true) ∧ s.txlen ≤ txCap) :
    (t.nvram.wf = true ∧ t.nvram.below nvSize = true) ∧ t.txlen ≤ txCap := by
  cases o with
  | din b =>
    cases h
    refine ⟨by simpa using hs.1, ?_⟩
    simp only [State.push_txlen]
    split
    · omega
    · exact hs.2
  | rd => rcases busRead_next h with ⟨_, rfl⟩ | ⟨_, _, rfl⟩ <;> exact ⟨hs.1, Nat.zero_le _⟩
  | wr => obtain ⟨rfl, _⟩ := busWrite_next h; exact ⟨performWrite_nvram_ok hs.1, Nat.zero_le _⟩

theorem runBus_ok {os : List BusOp} {s t : State} (h : runBus os s = .next t)
    (hs : (s.nvram.wf = true ∧ s.nvram.below nvSize = true) ∧ s.txlen ≤ txCap) :
    (t.nvram.wf = true ∧ t.nvram.below nvSize = true) ∧ t.txlen ≤ txCap := by
  induction os generalizing s with
  | nil => cases h; exact hs
  | cons o os ih =>
    obtain ⟨u, hu, ht⟩ := andThen_eq_next.mp h
    exact ih ht (busOp_ok hu hs)

/-- Where `TXN_UNDERFLOW` is `draw`, no bus operation is refused. -/
theorem runBus_draw {os : List BusOp} {s : State} (h : s.cfg.txnUnderflow = .draw) : ∃ t, runBus os s = .next t := by
  induction os generalizing s with
  | nil => exact ⟨s, rfl⟩
  | cons o os ih =>
    have : ∃ u, busOp o s = .next u := by
      cases o with
      | din b => exact ⟨_, rfl⟩
      | rd =>
        simp only [busOp, State.busRead, h]
        split
        · exact ⟨_, rfl⟩
        · exact ⟨_, rfl⟩
      | wr =>
        simp only [busOp, State.busWrite, h]
        split
        · exact ⟨_, rfl⟩
        · exact ⟨_, rfl⟩
    obtain ⟨u, hu⟩ := this
    obtain ⟨t, ht⟩ := ih (s := u) (by rw [busOp_cfg hu]; exact h)
    exact ⟨t, andThen_eq_next.mpr ⟨u, hu, ht⟩⟩

/-! ## The fan-out and the iteration -/

/-- The frame aggregate is the OR of the video stepper's answers over the cycles stepped. -/
theorem fanOut_frame (n : Nat) (fs : List Bool) (fr : Bool) (s : State) :
    (fanOut n fs fr s).1 = (fr || (fs.take n).any id) := by
  induction n generalizing fs fr s with
  | zero => simp [fanOut]
  | succ n ih =>
    cases fs with
    | nil => simp [fanOut, ih, frameOr]
    | cons f fs => simp [fanOut, ih, frameOr, Bool.or_assoc]

/-- The fan-out performs the cycle `n` times. -/
theorem fanOut_state (n : Nat) (fs : List Bool) (fr : Bool) (s : State) :
    (fanOut n fs fr s).2 = State.cycle^[n] s := by
  induction n generalizing fs fr s with
  | zero => rfl
  | succ n ih => simp [fanOut, ih, Function.iterate_succ_apply]

/-- What `Cpu.step()` can do. -/
theorem cpuStep_next {n : Nat} {s t : State} (h : s.cpuStep n = .next t) :
    t.mclk = s.mclk + n ∧ t.halted = s.halted ∧ t.cfg = s.cfg ∧ t.answers = s.answers ∧ t.rom = s.rom ∧
    t.trace = s.trace ∧ t.acc = s.acc ∧ t.cpu = (s.applyCpu s.answers.cpu).cpu ∧
    t.mem = (s.applyCpu s.answers.cpu).mem := by
  unfold State.cpuStep at h
  refine ⟨?_, ?_, ?_, ?_, ?_, ?_, ?_, ?_, ?_⟩
  · rw [runBus_mclk h]
  · rw [runBus_halted h]; rfl
  · rw [runBus_cfg h]; rfl
  · rw [runBus_answers h]; rfl
  · rw [runBus_rom h]; rfl
  · rw [runBus_trace h]; rfl
  · rw [runBus_acc h]; rfl
  · rw [runBus_cpu h]; rfl
  · rw [runBus_mem h]; rfl

/-- What `ITER n` can do: not halted, the instruction with its bus operations goes through, then `n` cycles, then the
tail with the OR of the first `n` answers. -/
theorem execIter_next {n : Byte} {s t : State} (h : execIter n s = .next t) :
    s.halted = false ∧ ∃ u, s.trapCheck.cpuStep n.toNat = .next u ∧
      t = iterTail ((u.answers.frames.take n.toNat).any id) (State.cycle^[n.toNat] u) := by
  unfold execIter at h
  split at h
  · cases h
  · rename_i hh
    obtain ⟨u, hu, ht⟩ := andThen_eq_next.mp h
    refine ⟨by simpa using hh, u, hu, ?_⟩
    have hm : u.mclk - s.trapCheck.mclk = n.toNat := by rw [(cpuStep_next hu).1]; omega
    simp only [iterRest, hm, fanOut_frame, fanOut_state, Bool.false_or] at ht
    exact (Host.Outcome.next.inj ht).symm

/-- `ITER n` goes through exactly where the instruction's bus operations do. -/
theorem execIter_of_cpuStep {n : Byte} {s u : State} (hh : s.halted = false)
    (hu : s.trapCheck.cpuStep n.toNat = .next u) :
    execIter n s = .next (iterTail ((u.answers.frames.take n.toNat).any id) (State.cycle^[n.toNat] u)) := by
  have hm : u.mclk - s.trapCheck.mclk = n.toNat := by rw [(cpuStep_next hu).1]; omega
  simp only [execIter, hh, hu, andThen, iterRest, hm, fanOut_frame, fanOut_state, Bool.false_or,
    Bool.false_eq_true, if_false]

/-- The trap check is one of the two entries' traps, or nothing. -/
theorem trapCheck_cases (s : State) : s.trapCheck = s ∨ ∃ e, s.trapCheck = s.takeTrap e := by
  unfold State.trapCheck
  split
  · split
    · exact .inr ⟨_, rfl⟩
    · exact .inr ⟨_, rfl⟩
  · exact .inl rfl

/-- The trap check touches the external CPU, its memory and what is put out, nothing else. -/
theorem trapCheck_frame (s : State) :
    ∃ (c : Cpu) (m : Memory) (o : List Event), s.trapCheck = { s with cpu := c, mem := m, out := o } := by
  rcases trapCheck_cases s with h | ⟨e, h⟩ <;> rw [h]
  · exact ⟨_, _, _, rfl⟩
  · exact ⟨_, _, _, rfl⟩

end Sys2Proof.Machine
end

