-- ==== Sys2Proof/Laws/PerInstr.lean ====
section
/-! SUPPORT. The family `Encoding`, one lemma per constructor of `Instr`: decoding the encoding of a well-formed
instruction gives it back, under every legal choice of the parameters (30_encoding.md R91, R93, R94). -/

namespace Sys2Proof.Laws

/-- The code of `i` decodes to `i`, with every operand at every value its encoding admits. -/
def Encoding.Statement (i : Instr) : Prop :=
  ∀ c : Config, c.Legal → i.wellFormed = true → decode c (encode c i) = .op i

theorem opWord_fields (op : Nat) (h : op < 16) (b : Byte) : opField (opWord op b) = op ∧ operandField (opWord op b) = b := by
  have hb := b.isLt
  have hv : (opWord op b).toNat = op * 256 + b.toNat := by
    simp only [opWord, BitVec.toNat_ofNat]
    omega
  constructor
  · simp only [opField, hv]; omega
  · simp only [operandField, hv]
    apply BitVec.eq_of_toNat_eq
    simp only [BitVec.toNat_ofNat]
    omega

/-- A selector of the low unmapped region decodes to the LOW sub-operation. -/
theorem decodeSel_low (s : Byte) (h : inLow s = true) :
    decodeReadSel s = .rdLow s ∧ decodeWriteSel s = .wrLow s := by
  revert s; decide

/-- A selector of the high unmapped region decodes to the HIGH sub-operation. -/
theorem decodeSel_high (s : Byte) (h : inHigh s = true) :
    decodeReadSel s = .rdHigh s ∧ decodeWriteSel s = .wrHigh s := by
  revert s; decide

/-- The selector of an NVRAM offset decodes to the NV sub-operation of that offset. -/
theorem decodeSel_nv (k : BitVec 6) :
    decodeReadSel (nvSelector k) = .rdNv k ∧ decodeWriteSel (nvSelector k) = .wrNv k := by
  revert k; decide

theorem Encoding.idle : Encoding.Statement .idle := fun _ _ _ => rfl
theorem Encoding.din (b : Byte) : Encoding.Statement (.din b) := by
  intro c _ _
  simp [encode, decode, decodeOpw, opWord_fields]
theorem Encoding.rd : Encoding.Statement .rd := fun _ _ _ => rfl
theorem Encoding.wr : Encoding.Statement .wr := fun _ _ _ => rfl
theorem Encoding.step (n : Byte) : Encoding.Statement (.step n) := by
  intro c _ _
  simp [encode, decode, decodeOpw, opWord_fields]
theorem Encoding.iter (n : Byte) : Encoding.Statement (.iter n) := by
  intro c _ _
  simp [encode, decode, decodeOpw, opWord_fields]
theorem Encoding.flush : Encoding.Statement .flush := fun _ _ _ => rfl
theorem Encoding.rst : Encoding.Statement .rst := fun _ _ _ => rfl
theorem Encoding.por : Encoding.Statement .por := fun _ _ _ => rfl
theorem Encoding.rdSec : Encoding.Statement .rdSec := fun _ _ _ => rfl
theorem Encoding.wrSec : Encoding.Statement .wrSec := fun _ _ _ => rfl
theorem Encoding.rdMin : Encoding.Statement .rdMin := fun _ _ _ => rfl
theorem Encoding.wrMin : Encoding.Statement .wrMin := fun _ _ _ => rfl
theorem Encoding.rdHour : Encoding.Statement .rdHour := fun _ _ _ => rfl
theorem Encoding.wrHour : Encoding.Statement .wrHour := fun _ _ _ => rfl
theorem Encoding.rdWkday : Encoding.Statement .rdWkday := fun _ _ _ => rfl
theorem Encoding.wrWkday : Encoding.Statement .wrWkday := fun _ _ _ => rfl
theorem Encoding.rdDay : Encoding.Statement .rdDay := fun _ _ _ => rfl
theorem Encoding.wrDay : Encoding.Statement .wrDay := fun _ _ _ => rfl
theorem Encoding.rdMonth : Encoding.Statement .rdMonth := fun _ _ _ => rfl
theorem Encoding.wrMonth : Encoding.Statement .wrMonth := fun _ _ _ => rfl
theorem Encoding.rdYear : Encoding.Statement .rdYear := fun _ _ _ => rfl
theorem Encoding.wrYear : Encoding.Statement .wrYear := fun _ _ _ => rfl
theorem Encoding.rdLow (s : Byte) : Encoding.Statement (.rdLow s) := fun _ _ h => congrArg _ (decodeSel_low s h).1
theorem Encoding.wrLow (s : Byte) : Encoding.Statement (.wrLow s) := fun _ _ h => congrArg _ (decodeSel_low s h).2
theorem Encoding.rdHigh (s : Byte) : Encoding.Statement (.rdHigh s) := fun _ _ h => congrArg _ (decodeSel_high s h).1
theorem Encoding.wrHigh (s : Byte) : Encoding.Statement (.wrHigh s) := fun _ _ h => congrArg _ (decodeSel_high s h).2
theorem Encoding.rdNv (k : BitVec 6) : Encoding.Statement (.rdNv k) := fun _ _ _ => congrArg _ (decodeSel_nv k).1
theorem Encoding.wrNv (k : BitVec 6) : Encoding.Statement (.wrNv k) := fun _ _ _ => congrArg _ (decodeSel_nv k).2
theorem Encoding.trapLoad : Encoding.Statement .trapLoad := by
  intro c _ _
  simp [encode, decode, decodePcm]
theorem Encoding.trapSave : Encoding.Statement .trapSave := by
  intro c hc _
  simp [encode, decode, decodePcm, hc.2.symm]

end Sys2Proof.Laws
end

