-- ==== Sys2Proof/Laws/Registers.lean ====
section
/-! SUPPORT. The register boundary in plain arithmetic, and how the dispatch of `RD` and `WR` agrees with the decoding of
the selector. -/

namespace Sys2Proof.Machine

/-- `bcd_enc` of a register's value as tens times sixteen plus units. -/
theorem bcdEnc_eq (v : Nat) : bcdEnc v = BitVec.ofNat 8 (v / 10 * 16 + v % 10) := by
  have h : v % 10 < 2 ^ 4 := by omega
  rw [bcdEnc, trunc8, ← Nat.shiftLeft_add_eq_or_of_lt h, Nat.shiftLeft_eq]

/-- `bcd_dec` as tens times ten plus units. -/
theorem bcdDec_eq (b : Byte) : bcdDec b = b.toNat / 16 * 10 + b.toNat % 16 := by
  have := b.isLt
  simp only [bcdDec, BitVec.extractLsb'_toNat, Nat.shiftRight_eq_div_pow]
  omega

/-- With two bytes held, the data of a write is `buf[1]`. -/
theorem writeData_of_two {s : State} (h : 2 ≤ s.txlen) : s.writeData = (s.buf[1], s) := if_pos h

/-- With one byte held, the selector of a write is `buf[0]`. -/
theorem selector_of_one {s : State} (h : 1 ≤ s.txlen) : s.selector = (s.buf[0], s) := if_pos h

/-- With fewer than two bytes held, the data of a write is the next free byte. -/
theorem writeData_of_missing {s : State} (h : ¬ 2 ≤ s.txlen) : s.writeData = s.drawByte := if_neg h

/-- With no byte held, the selector of a write is the next free byte. -/
theorem selector_of_empty {s : State} (h : ¬ 1 ≤ s.txlen) : s.selector = s.drawByte := if_neg h

theorem finishWrite_of_two {s : State} (h : 2 ≤ s.txlen) (store : Byte → State → State) :
    s.finishWrite store = (store s.buf[1] s).endTxn := by
  simp only [State.finishWrite, writeData_of_two h]

/-- Under a data byte with bit 6 clear, `WR.HOUR` is the 24-hour store. -/
theorem writeHour_24 {d : Byte} (h : d.getLsbD 6 = false) (s : State) : writeHour d s = writeHour24 d s :=
  if_neg (by rw [bitOf, h]; exact Bool.false_ne_true)

/-- Under a data byte with bit 6 set, `WR.HOUR` is the 12-hour store. -/
theorem writeHour_12 {d : Byte} (h : d.getLsbD 6 = true) (s : State) : writeHour d s = writeHour12 d s :=
  if_pos h

/-- The selector's region as the row table decodes it: the seven registers, then LOW, NV and HIGH by range. -/
theorem decodeReadSel_eq (v : Byte) :
    decodeReadSel v =
      if v.toNat = 0 then .rdSec else if v.toNat = 1 then .rdMin else if v.toNat = 2 then .rdHour
      else if v.toNat = 3 then .rdWkday else if v.toNat = 4 then .rdDay else if v.toNat = 5 then .rdMonth
      else if v.toNat = 6 then .rdYear else if v.toNat ≤ 0x1F then .rdLow v
      else if v.toNat ≤ 0x5F then .rdNv (nvOffset v) else .rdHigh v := by
  revert v; decide

theorem decodeWriteSel_eq (v : Byte) :
    decodeWriteSel v =
      if v.toNat = 0 then .wrSec else if v.toNat = 1 then .wrMin else if v.toNat = 2 then .wrHour
      else if v.toNat = 3 then .wrWkday else if v.toNat = 4 then .wrDay else if v.toNat = 5 then .wrMonth
      else if v.toNat = 6 then .wrYear else if v.toNat ≤ 0x1F then .wrLow v
      else if v.toNat ≤ 0x5F then .wrNv (nvOffset v) else .wrHigh v := by
  revert v; decide

/-- The NVRAM offset of a selector of the NVRAM region is the selector less 0x20. -/
theorem nvOffset_toNat {v : Byte} (h : v.toNat ≤ 0x5F) : (nvOffset v).toNat = v.toNat - nvBase := by
  simp only [nvOffset, nvBase, BitVec.toNat_ofNat]
  omega

/-- `read_reg` performs the sub-operation its selector decodes to. -/
theorem exec_decodeReadSel (v : Byte) (s : State) :
    exec (decodeReadSel v) s = .next (s.finishRead (readReg v s)) := by
  rw [decodeReadSel_eq, readReg]
  split_ifs <;> first | rfl | (rw [← nvOffset_toNat (by assumption)]; rfl)

/-- `write_reg` performs the sub-operation its selector decodes to. -/
theorem exec_decodeWriteSel (v : Byte) (s : State) :
    exec (decodeWriteSel v) s = .next (s.finishWrite (writeReg v)) := by
  have hf : ∀ f g : Byte → State → State, (∀ d t, f d t = g d t) → s.finishWrite f = s.finishWrite g :=
    fun f g h => by rw [show f = g from funext fun d => funext fun t => h d t]
  rw [decodeWriteSel_eq]
  split_ifs <;> refine congrArg Host.Outcome.next (hf _ _ fun d t => ?_) <;>
    simp only [writeReg, nvOffset_toNat, *, if_true, if_false] <;> rfl

end Sys2Proof.Machine
end

