-- ==== Sys2Proof/Laws/Step.lean ====
section
/-! SUPPORT. What one step can do, the elapsed cycles of an iteration as calendar steps, and the canonical form of the
memories right after reset. -/

namespace Sys2Proof.Machine

/-- The memories of `State.reset` are canonical. -/
theorem reset_memories_wf :
    State.reset.nvram.wf = true ∧ State.reset.mem.wf = true ∧ State.reset.rom.wf = true := by decide

/-- An operation word never decodes to a program counter's answer. -/
theorem decodeOpw_cases (w : OpWord) : (∃ i, decodeOpw w = .op i) ∨ decodeOpw w = .reserved w := by
  unfold decodeOpw bareOp
  split <;> (try split) <;> simp

/-- A step that answers a next state performs the decoded operation of the trace's first line, or is the `IDLE` of an
empty trace. -/
theorem step_next {s t : State} (h : step s = .next t) :
    (s.trace = [] ∧ t = { s with out := [] }) ∨
    ∃ l rest i, s.trace = l :: rest ∧ decodeOpw l.word = .op i ∧ exec i (s.latch l rest) = .next t := by
  unfold step State.fetch at h
  cases htr : s.trace with
  | nil =>
    rw [htr] at h
    exact .inl ⟨rfl, (Host.Outcome.next.inj h).symm⟩
  | cons l rest =>
    rw [htr] at h
    simp only [decode] at h
    rcases decodeOpw_cases l.word with ⟨i, hi⟩ | hr
    · rw [hi] at h
      exact .inr ⟨l, rest, i, rfl, hi, h⟩
    · rw [hr] at h; cases h

/-- One elapsed cycle is one `STEP 1` and the four calls. -/
theorem cycle_eq (s : State) :
    s.cycle = { s.stepRtc 1 with out := .rtcStep :: .storageStep :: .inputStep :: .videoStep :: s.out } := by
  unfold State.cycle State.stepRtc State.emit
  simp only
  split
  · split <;> rfl
  · rfl

/-- `STEP` touches the calendar and the accumulator, and looks at neither calls nor clocks. -/
theorem stepRtc_eq (s : State) (n : Nat) : s.stepRtc n = { s with cal := (s.stepRtc n).cal, acc := (s.stepRtc n).acc } := by
  unfold State.stepRtc
  split
  · split <;> rfl
  · rfl

/-- `n` elapsed cycles are `n` times `STEP 1` and `n` times the four calls. -/
theorem cycle_iterate (n : Nat) (s : State) :
    State.cycle^[n] s = { (fun u => State.stepRtc u 1)^[n] s with
      out := (List.replicate n [Event.rtcStep, .storageStep, .inputStep, .videoStep]).flatten ++ s.out } := by
  induction n generalizing s with
  | zero => rfl
  | succ n ih =>
    have hout : ∀ (u : State) (o : List Event), ({ u with out := o } : State).stepRtc 1 = { u.stepRtc 1 with out := o } := by
      intro u o
      unfold State.stepRtc
      simp only
      split
      · split <;> rfl
      · rfl
    have hit : ∀ (m : Nat) (u : State) (o : List Event),
        (fun u => State.stepRtc u 1)^[m] { u with out := o } = { (fun u => State.stepRtc u 1)^[m] u with out := o } := by
      intro m
      induction m with
      | zero => intros; rfl
      | succ m im =>
        intro u o
        rw [Function.iterate_succ_apply, Function.iterate_succ_apply]
        show (fun u => State.stepRtc u 1)^[m] (({ u with out := o } : State).stepRtc 1) = _
        rw [hout u o, im]
    rw [Function.iterate_succ_apply, ih, cycle_eq, hit, Function.iterate_succ_apply]
    have hrep : ∀ (m : Nat) (x r : List Event),
        (List.replicate m x).flatten ++ (x ++ r) = x ++ ((List.replicate m x).flatten ++ r) := by
      intro m x r
      induction m with
      | zero => rfl
      | succ m im => simp [List.replicate_succ, im]
    have := hrep n [Event.rtcStep, .storageStep, .inputStep, .videoStep] s.out
    simp only [List.replicate_succ, List.flatten_cons, List.cons_append, List.nil_append] at this ⊢
    rw [this]

/-- `n` times `STEP 1` touches the calendar and the accumulator only. -/
theorem stepRtc_iterate (n : Nat) (s : State) :
    (fun u => State.stepRtc u 1)^[n] s =
      { s with cal := ((fun u => State.stepRtc u 1)^[n] s).cal, acc := ((fun u => State.stepRtc u 1)^[n] s).acc } := by
  induction n generalizing s with
  | zero => rfl
  | succ n ih =>
    rw [Function.iterate_succ_apply, ih, stepRtc_eq s 1]

/-! ## The RTC's part of the state does not look at the rest -/

/-- The RTC's own state and the parameters of `y`, everything else of `z`. -/
def joinRtc (y z : State) : State :=
  { z with
    cal := y.cal, run := y.run, h24 := y.h24, vbaten := y.vbaten, nvram := y.nvram, dirty := y.dirty, buf := y.buf,
    txlen := y.txlen, acc := y.acc, cfg := y.cfg, draws := y.draws }

theorem joinRtc_writeReg (sel d : Byte) (y z : State) :
    writeReg sel d (joinRtc y z) = joinRtc (writeReg sel d y) z := by
  unfold writeReg writeHour
  split_ifs <;> rfl

theorem joinRtc_performWrite (y z : State) : (joinRtc y z).performWrite = joinRtc y.performWrite z := by
  have hd : ∀ u : State, (joinRtc u z).writeData = (u.writeData.1, joinRtc u.writeData.2 z) := by
    intro u
    unfold State.writeData
    show (if 2 ≤ u.txlen then _ else _) = _
    by_cases h : 2 ≤ u.txlen
    · rw [if_pos h, if_pos h]; rfl
    · rw [if_neg h, if_neg h]; rfl
  have hs : (joinRtc y z).selector = (y.selector.1, joinRtc y.selector.2 z) := by
    unfold State.selector
    show (if 1 ≤ y.txlen then _ else _) = _
    by_cases h : 1 ≤ y.txlen
    · rw [if_pos h, if_pos h]; rfl
    · rw [if_neg h, if_neg h]; rfl
  unfold State.performWrite State.finishWrite
  rw [hs, hd, joinRtc_writeReg]
  rfl

/-- A bus operation acts on the RTC's part whatever the rest of the state is, and puts the same bytes out. -/
theorem busOp_joinRtc {o : BusOp} {y z w : State} (h : busOp o (joinRtc y z) = .next w) :
    ∃ u z', busOp o y = .next u ∧ w = joinRtc u z' ∧ (z.out = y.out → z'.out = u.out) := by
  cases o with
  | din b =>
    refine ⟨_, z, rfl, ?_, fun h => by simpa using h⟩
    rw [← Host.Outcome.next.inj h]
    show State.push _ b = _
    unfold State.push
    show (if y.txlen < txCap then _ else _) = _
    by_cases hc : y.txlen < txCap
    · rw [if_pos hc, if_pos hc]; rfl
    · rw [if_neg hc, if_neg hc]
  | rd =>
    have hr : ∀ sel, readReg sel (joinRtc y z) = readReg sel y := by
      intro sel; unfold readReg readHour; split_ifs <;> first | rfl | contradiction
    rcases busRead_next h with ⟨h1, rfl⟩ | ⟨h1, h2, rfl⟩
    · refine ⟨y.finishRead (readReg y.buf[0] y), z.emit (.dout (readReg y.buf[0] y)), ?_, ?_, fun h => congrArg (List.cons _) h⟩
      · show y.busRead = _
        unfold State.busRead
        exact if_pos h1
      · rw [hr]; rfl
    · refine ⟨y.drawByte.2.finishRead y.drawByte.1, z.emit (.dout y.drawByte.1), ?_, rfl, fun h => congrArg (List.cons _) h⟩
      show y.busRead = _
      unfold State.busRead
      have h1' : y.txlen = 0 := h1
      have h2' : y.cfg.txnUnderflow = .draw := h2
      rw [if_neg (by omega), h2']
  | wr =>
    obtain ⟨rfl, hc⟩ := busWrite_next h
    refine ⟨y.performWrite, z, ?_, joinRtc_performWrite y z, fun h => by simpa using h⟩
    show y.busWrite = _
    unfold State.busWrite
    rcases hc with hc | hc
    · exact if_pos hc
    · have hc' : y.cfg.txnUnderflow = .draw := hc
      by_cases h2 : 2 ≤ y.txlen
      · exact if_pos h2
      · rw [if_neg h2, hc']

/-- Bus operations act on the RTC's part whatever the rest of the state is, and put the same bytes out. -/
theorem runBus_joinRtc {os : List BusOp} {y z w : State} (h : runBus os (joinRtc y z) = .next w) :
    ∃ u z', runBus os y = .next u ∧ w = joinRtc u z' ∧ (z.out = y.out → z'.out = u.out) := by
  induction os generalizing y z with
  | nil => cases h; exact ⟨y, z, rfl, rfl, id⟩
  | cons o os ih =>
    obtain ⟨x, hx, hw⟩ := andThen_eq_next.mp h
    obtain ⟨u1, z1, hu1, rfl, ho1⟩ := busOp_joinRtc hx
    obtain ⟨u, z', hu, rfl, ho⟩ := ih hw
    exact ⟨u, z', andThen_eq_next.mpr ⟨u1, hu1, hu⟩, rfl, fun h => ho (ho1 h)⟩

end Sys2Proof.Machine
end

