-- ==== Sys2Proof/Tests/Slice0.lean ====
section
/-! SUPPORT. Tests on fixed values, taken from the vectors of 95_test_vectors.md and the tables of 30_encoding.md
(each names its source), a smoke test of well-formedness, and for every statement with hypotheses a theorem that shows
values which meet them. -/

open Sys2Proof Sys2Proof.Machine Sys2Proof.Slice0

namespace Sys2Proof.Tests

/-! ## Small states -/

/-- A running machine with `CPS = 8` (vectors V5) and a policy for missing bytes. -/
def base (u : Underflow) : State :=
  { State.reset with cfg := { Config.chosen with cps := 8, txnUnderflow := u }, run := true }

/-- The base state, missing bytes refused. -/
def strict : State := base .refuse

/-- A calendar in the order of the vectors: year, month, day, hour, minute, second, weekday. -/
def date (yr mon day hr min sec : Byte) (wkd : BitVec 3) : Calendar :=
  { sec := sec, min := min, hr := hr, wkd := wkd, day := day, mon := mon, yr := yr }

/-- The state with a calendar. -/
def at_ (c : Calendar) (s : State) : State := { s with cal := c }

/-- The state with bytes moved into the buffer. -/
def holding (bs : List Byte) (s : State) : State := bs.foldl State.push s

/-- What a read put out. -/
def readOut : Result → Option Byte
  | .next t => match t.out with
    | .dout v :: _ => some v
    | _ => none
  | .fault _ => none
  | .refused _ => none

/-- Whether an operation completed in a state with a property. -/
def ends (r : Result) (p : State → Bool) : Bool :=
  match r with
  | .next t => p t
  | .fault _ => false
  | .refused _ => false

/-- What stopped an operation. -/
def stop : Result → Option Refusal
  | .next _ => none
  | .fault _ => none
  | .refused r => some r

/-- The start of the vectors V9: the stack and both trap conditions of memory and ROM in place. -/
def trapAt (pc : Addr) (flag : Byte) : State :=
  { base .draw with
    cpu := { pc := pc, sp := 0xFB, i := false }
    mem := [(0x8A, flag), (0x01FC, 0x34), (0x01FD, 0x12)]
    rom := { size := 0x3FFA, bytes := [(0x3FF6, 0x4D), (0x3FF7, 0x49), (0x3FF8, 0x53), (0x3FF9, 0x54)] } }

/-- The start of the vectors V8, with the collaborators' answers. -/
def iterWith (frames : List Bool) (cont i : Bool) (bus : List BusOp) : State :=
  { base .refuse with
    cfg := { Config.chosen with cps := 100, txnUnderflow := .refuse }
    acc := 10
    cpu := { pc := 0, sp := 0xFB, i := i }
    answers := { frames := frames, cont := cont, bus := bus } }

/-! ## Well-formedness: an ill-formed term for each check, and the edges of the regions (20_memory.md R61) -/

theorem test_wellFormed_low :
    (Instr.rdLow 0x06).wellFormed = false ∧ (Instr.rdLow 0x20).wellFormed = false ∧
    (Instr.wrLow 0x06).wellFormed = false ∧ (Instr.wrLow 0x20).wellFormed = false ∧
    (Instr.rdLow 0x07).wellFormed = true ∧ (Instr.wrLow 0x1F).wellFormed = true := by decide

theorem test_wellFormed_high :
    (Instr.rdHigh 0x5F).wellFormed = false ∧ (Instr.wrHigh 0x5F).wellFormed = false ∧
    (Instr.rdHigh 0x60).wellFormed = true ∧ (Instr.wrHigh 0xFF).wellFormed = true := by decide

/-! ## Decoding, by words written out from the tables of 30_encoding.md -/

/-- R91, R92: `op` in bits 11:8, the operand in bits 7:0. -/
theorem test_decode_opw :
    decodeOpw 0b000000000000 = .op .idle ∧ decodeOpw 0b000110100101 = .op (.din 0xA5) ∧
    decodeOpw 0b001000000000 = .op .rd ∧ decodeOpw 0b001100000000 = .op .wr ∧
    decodeOpw 0b010000010100 = .op (.step 20) ∧ decodeOpw 0b010100000111 = .op (.iter 7) ∧
    decodeOpw 0b011000000000 = .op .flush ∧ decodeOpw 0b011100000000 = .op .rst ∧
    decodeOpw 0b100000000000 = .op .por := by decide

/-- R96: a reserved operation code, and a non-zero operand where there is none. -/
theorem test_decode_reserved :
    decodeOpw 0b100100000000 = .reserved 0x900 ∧ decodeOpw 0b111111111111 = .reserved 0xFFF ∧
    decodeOpw 0b000000000001 = .reserved 0x001 ∧ decodeOpw 0b001000000001 = .reserved 0x201 ∧
    decodeOpw 0b001110000000 = .reserved 0x380 ∧ decodeOpw 0b011000000010 = .reserved 0x602 ∧
    decodeOpw 0b011111111111 = .reserved 0x7FF ∧ decodeOpw 0b100000000001 = .reserved 0x801 := by decide

/-- R93 under `RD`, each row of the table. -/
theorem test_decode_sel_read :
    decodeSel .read 0b00000000 = .rdSec ∧ decodeSel .read 0b00000001 = .rdMin ∧
    decodeSel .read 0b00000010 = .rdHour ∧ decodeSel .read 0b00000011 = .rdWkday ∧
    decodeSel .read 0b00000100 = .rdDay ∧ decodeSel .read 0b00000101 = .rdMonth ∧
    decodeSel .read 0b00000110 = .rdYear ∧ decodeSel .read 0b00000111 = .rdLow 0x07 ∧
    decodeSel .read 0b00001000 = .rdLow 0x08 ∧ decodeSel .read 0b00011111 = .rdLow 0x1F ∧
    decodeSel .read 0b00100000 = .rdNv 0 ∧ decodeSel .read 0b01011111 = .rdNv 63 ∧
    decodeSel .read 0b01100000 = .rdHigh 0x60 ∧ decodeSel .read 0b11111111 = .rdHigh 0xFF := by decide

/-- R93 under `WR`, each row of the table. -/
theorem test_decode_sel_write :
    decodeSel .write 0b00000000 = .wrSec ∧ decodeSel .write 0b00000001 = .wrMin ∧
    decodeSel .write 0b00000010 = .wrHour ∧ decodeSel .write 0b00000011 = .wrWkday ∧
    decodeSel .write 0b00000100 = .wrDay ∧ decodeSel .write 0b00000101 = .wrMonth ∧
    decodeSel .write 0b00000110 = .wrYear ∧ decodeSel .write 0b00000111 = .wrLow 0x07 ∧
    decodeSel .write 0b00001111 = .wrLow 0x0F ∧ decodeSel .write 0b00010000 = .wrLow 0x10 ∧
    decodeSel .write 0b00111111 = .wrNv 31 ∧ decodeSel .write 0b01000000 = .wrNv 32 ∧
    decodeSel .write 0b01111111 = .wrHigh 0x7F ∧ decodeSel .write 0b10000000 = .wrHigh 0x80 := by decide

/-- R94 with the example vectors of V9: all 16 bits count. -/
theorem test_decode_pcm :
    decodePcm Config.chosen 0b1111111111010101 = .op .trapLoad ∧
    decodePcm Config.chosen 0b1111111111011000 = .op .trapSave ∧
    decodePcm Config.chosen 0b1111111111010110 = .noTrap 0xFFD6 ∧
    decodePcm Config.chosen 0b0111111111010101 = .noTrap 0x7FD5 := by decide

/-- R113 with the words of programs P1. -/
theorem test_expand :
    expandWrReg 0x00 0xD8 = [0x100, 0x1D8, 0x300] ∧ expandRdReg 0x06 = [0x106, 0x200] ∧
    expandCycles 2 = [0x401, 0x401] := by decide

/-! ## BCD (vectors V1) -/

theorem test_bcd_enc :
    bcdEnc 0 = 0x00 ∧ bcdEnc 7 = 0x07 ∧ bcdEnc 20 = 0x20 ∧ bcdEnc 99 = 0x99 ∧ bcdEnc 165 = 0x05 := by decide

theorem test_bcd_dec :
    bcdDec 0x59 = 59 ∧ bcdDec 0x1A = 20 ∧ bcdDec 0x7F = 85 ∧ bcdDec 0xFF = 165 ∧ bcdDec 0x1F = 25 := by decide

/-! ## The Transactor (vectors V6) -/

/-- V6.1 and V6.4. -/
theorem test_din :
    ends (exec (.din 0x02) strict) (fun t => t.txlen == 1 && t.buf[0] == 0x02) = true ∧
    ends (exec (.din 0x77) { strict with txlen := 16 }) (fun t => t == { strict with txlen := 16 }) = true := by decide

/-- V6.2 and V6.8. -/
theorem test_rd :
    readOut (exec .rd (holding [0x01] (at_ (date 0 1 1 0 42 0 1) strict))) = some 0x42 ∧
    ends (exec .rd (holding [0x20, 0x99] { strict with nvram := [(0, 0xA5)] }))
      (fun t => t.out == [.dout 0xA5] && t.nvram == [(0, 0xA5)] && t.txlen == 0) = true := by decide

/-- V6.3 and V6.9. -/
theorem test_wr :
    ends (exec .wr (holding [0x06, 0x24] strict)) (fun t => t.cal.yr == 24 && t.txlen == 0) = true ∧
    ends (exec .wr (holding [0x20, 0x11, 0x22] strict))
      (fun t => t.nvram == [(0, 0x11)] && t.dirty && t.txlen == 0) = true := by decide

/-- V6.5. -/
theorem test_rd_refused : stop (exec .rd strict) = some .readWithoutPointer := by decide

/-- V6.6 and V6.7. -/
theorem test_wr_refused :
    stop (exec .wr strict) = some .writeWithoutData ∧
    stop (exec .wr (holding [0x06] strict)) = some .writeWithoutData := by decide

/-- Decision D13's other choice: the operation completes and the transaction ends. -/
theorem test_underflow_draws :
    ends (exec .rd (base .draw)) (fun t => t.txlen == 0 && t.draws == 1) = true ∧
    ends (exec .wr (holding [0x06] (base .draw))) (fun t => t.txlen == 0 && t.draws == 1) = true := by decide

/-! ## Reads (vectors V2, V3, V7) -/

/-- V2.2 and V2.1. -/
theorem test_rd_sec :
    readOut (exec .rdSec (at_ (date 0 1 1 0 0 59 1) strict)) = some 0xD9 ∧
    readOut (exec .rdSec { at_ (date 0 1 1 0 0 0 1) strict with run := false }) = some 0x00 := by decide
/-- V2.8. -/
theorem test_rd_min : readOut (exec .rdMin (at_ (date 0 1 1 0 42 0 1) strict)) = some 0x42 := by decide
/-- V2.10. -/
theorem test_rd_hour_24 : readOut (exec .rdHour (at_ (date 0 1 1 23 0 0 1) strict)) = some 0x23 := by decide
/-- V2.11 to V2.14. -/
theorem test_rd_hour_12 :
    readOut (exec .rdHour { at_ (date 0 1 1 23 0 0 1) strict with h24 := false }) = some 0x71 ∧
    readOut (exec .rdHour { at_ (date 0 1 1 0 0 0 1) strict with h24 := false }) = some 0x52 ∧
    readOut (exec .rdHour { at_ (date 0 1 1 12 0 0 1) strict with h24 := false }) = some 0x72 ∧
    readOut (exec .rdHour { at_ (date 0 1 1 10 0 0 1) strict with h24 := false }) = some 0x50 := by decide
/-- V3.2 and V3.3. -/
theorem test_rd_wkday :
    readOut (exec .rdWkday { at_ (date 0 1 1 0 0 0 7) strict with vbaten := true }) = some 0x2F ∧
    readOut (exec .rdWkday { at_ (date 0 1 1 0 0 0 3) strict with vbaten := true, run := false }) = some 0x0B := by decide
/-- V3.9. -/
theorem test_rd_day : readOut (exec .rdDay (at_ (date 0 1 31 0 0 0 1) strict)) = some 0x31 := by decide
/-- V3.11 to V3.14. -/
theorem test_rd_month :
    readOut (exec .rdMonth (at_ (date 24 2 1 0 0 0 1) strict)) = some 0x22 ∧
    readOut (exec .rdMonth (at_ (date 23 2 1 0 0 0 1) strict)) = some 0x02 ∧
    readOut (exec .rdMonth (at_ (date 0 12 1 0 0 0 1) strict)) = some 0x32 ∧
    readOut (exec .rdMonth (at_ (date 99 10 1 0 0 0 1) strict)) = some 0x10 := by decide
/-- V3.18. -/
theorem test_rd_year : readOut (exec .rdYear (at_ (date 99 1 1 0 0 0 1) strict)) = some 0x99 := by decide
/-- V7.1. -/
theorem test_rd_nv : readOut (exec (.rdNv 5) { strict with nvram := [(5, 0xA7)] }) = some 0xA7 := by decide
/-- V7.5 and V7.6. -/
theorem test_rd_low :
    readOut (exec (.rdLow 0x07) strict) = some 0x00 ∧ readOut (exec (.rdLow 0x1F) strict) = some 0x00 := by decide
/-- V7.7 and V7.8. -/
theorem test_rd_high :
    readOut (exec (.rdHigh 0x60) strict) = some 0xFF ∧ readOut (exec (.rdHigh 0xFF) strict) = some 0xFF := by decide

/-! ## Writes (vectors V2, V3, V7) -/

/-- V2.5, V2.6 and V2.7. -/
theorem test_wr_sec :
    ends (exec .wrSec (holding [0, 0x59] strict)) (fun t => !t.run && t.cal.sec == 59) = true ∧
    ends (exec .wrSec (holding [0, 0xB0] strict)) (fun t => t.run && t.cal.sec == 30) = true ∧
    ends (exec .wrSec (holding [0, 0x7F] strict)) (fun t => !t.run && t.cal.sec == 85) = true := by decide
/-- V2.9. -/
theorem test_wr_min : ends (exec .wrMin (holding [1, 0x42] strict)) (fun t => t.cal.min == 42) = true := by decide
/-- V2.15 and V2.23. -/
theorem test_wr_hour_24 :
    ends (exec .wrHour (holding [2, 0x23] strict)) (fun t => t.h24 && t.cal.hr == 23) = true ∧
    ends (exec .wrHour (holding [2, 0xA3] strict)) (fun t => t.h24 && t.cal.hr == 23) = true := by decide
/-- V2.16 to V2.22. -/
theorem test_wr_hour_12 :
    ends (exec .wrHour (holding [2, 0x52] strict)) (fun t => !t.h24 && t.cal.hr == 0) = true ∧
    ends (exec .wrHour (holding [2, 0x72] strict)) (fun t => !t.h24 && t.cal.hr == 12) = true ∧
    ends (exec .wrHour (holding [2, 0x61] strict)) (fun t => !t.h24 && t.cal.hr == 13) = true ∧
    ends (exec .wrHour (holding [2, 0x73] strict)) (fun t => !t.h24 && t.cal.hr == 25) = true := by decide
/-- V3.4 and V3.5. -/
theorem test_wr_wkday :
    ends (exec .wrWkday (holding [3, 0x23] strict)) (fun t => t.cal.wkd == 3 && t.vbaten && t.run) = true ∧
    ends (exec .wrWkday (holding [3, 0x0B] strict)) (fun t => t.cal.wkd == 3 && !t.vbaten && t.run) = true := by decide
/-- V3.10. -/
theorem test_wr_day : ends (exec .wrDay (holding [4, 0x31] strict)) (fun t => t.cal.day == 31) = true := by decide
/-- V3.15 to V3.17. -/
theorem test_wr_month :
    ends (exec .wrMonth (holding [5, 0x12] strict)) (fun t => t.cal.mon == 12) = true ∧
    ends (exec .wrMonth (holding [5, 0x22] strict)) (fun t => t.cal.mon == 2) = true ∧
    ends (exec .wrMonth (holding [5, 0x00] strict)) (fun t => t.cal.mon == 0) = true := by decide
/-- V3.19. -/
theorem test_wr_year : ends (exec .wrYear (holding [6, 0x24] strict)) (fun t => t.cal.yr == 24) = true := by decide
/-- V7.2 and V7.3. -/
theorem test_wr_nv :
    ends (exec (.wrNv 0) (holding [0x20, 0xA5] strict)) (fun t => t.nvram.read 0 == 0xA5 && t.dirty) = true ∧
    ends (exec (.wrNv 63) (holding [0x5F, 0x00] strict)) (fun t => t.nvram.read 63 == 0x00 && t.dirty) = true := by decide
/-- V7.9. -/
theorem test_wr_low :
    ends (exec (.wrLow 0x10) (holding [0x10, 0x77] strict)) (fun t => !t.dirty && t.txlen == 0 && t.nvram == []) = true := by
  decide
/-- V7.10. -/
theorem test_wr_high :
    ends (exec (.wrHigh 0x80) (holding [0x80, 0x77] strict)) (fun t => !t.dirty && t.txlen == 0 && t.nvram == []) = true := by
  decide

/-! ## The calendar (vectors V4, V5) -/

/-- V4.1 to V4.5. -/
theorem test_tick_carries :
    (date 25 6 15 12 34 56 7).tick = date 25 6 15 12 34 57 7 ∧ (date 25 6 15 11 59 59 7).tick = date 25 6 15 12 0 0 7 ∧
    (date 24 12 31 23 59 59 7).tick = date 25 1 1 0 0 0 1 ∧ (date 99 12 31 23 59 59 4).tick = date 0 1 1 0 0 0 5 := by
  decide

/-- V4.6 to V4.11. -/
theorem test_tick_month_lengths :
    (date 23 2 28 23 59 59 2).tick = date 23 3 1 0 0 0 3 ∧ (date 24 2 28 23 59 59 3).tick = date 24 2 29 0 0 0 4 ∧
    (date 24 2 29 23 59 59 4).tick = date 24 3 1 0 0 0 5 ∧ (date 0 2 28 23 59 59 1).tick = date 0 2 29 0 0 0 2 ∧
    (date 25 4 30 23 59 59 3).tick = date 25 5 1 0 0 0 4 ∧ (date 25 1 31 23 59 59 5).tick = date 25 2 1 0 0 0 6 := by
  decide

/-- V4.12 to V4.15: outside `CalValid` (decision D8). -/
theorem test_tick_invalid :
    (date 23 2 30 23 59 59 0).tick = date 23 3 1 0 0 0 1 ∧ (date 25 6 15 12 80 85 3).tick = date 25 6 15 13 0 0 3 ∧
    (date 165 13 40 45 165 59 7).tick = date 0 1 1 0 0 0 1 ∧ (date 25 0 31 23 59 59 7).tick = date 25 1 1 0 0 0 1 := by
  decide

/-- V5.3 and V5.4. -/
theorem test_step :
    ends (exec (.step 3) { at_ (date 25 6 15 12 0 10 7) strict with acc := 7 })
      (fun t => t.acc == 2 && t.cal.sec == 11) = true ∧
    ends (exec (.step 1) { at_ (date 25 6 15 12 0 10 7) strict with acc := 7, run := false })
      (fun t => t.acc == 7 && t.cal.sec == 10) = true := by decide

/-- V5.7 and V5.8. -/
theorem test_step_one_tick :
    ends (exec (.step 20) { at_ (date 25 6 15 12 0 10 7) strict with acc := 3 })
      (fun t => t.acc == 15 && t.cal.sec == 11) = true ∧
    ends (exec (.step 3) { at_ (date 24 2 28 23 59 59 3) strict with acc := 5 })
      (fun t => t.acc == 0 && t.cal == date 24 2 29 0 0 0 4) = true := by decide

/-! ## The Scheduler and the trap (vectors V8, V9) -/

/-- V8.2 and V8.5. -/
theorem test_iter_frame :
    ends (exec (.iter 3) (iterWith [false, true, false] true false [])) (fun t => t.acc == 13 && t.mclk == 3 &&
      t.out.count .refresh == 1 && t.out.count .irq == 1 && t.out.count .videoStep == 3 && !t.halted) = true ∧
    ends (exec (.iter 2) (iterWith [false, true] false false [])) (fun t => t.acc == 12 && t.halted &&
      t.out.count .refresh == 1 && t.out.count .irq == 0 && t.out.count (.delay 0) == 0) = true := by decide

/-- V8.8: the read of the instruction comes before the tick of its cycles. -/
theorem test_iter_bus :
    ends (exec (.iter 4) (at_ (date 25 6 15 12 0 10 7)
        { iterWith [] true false [.din 0x00, .rd] with acc := 98 }))
      (fun t => t.out.contains (.dout 0x90) && t.cal.sec == 11 && t.acc == 2) = true := by decide

/-- V9.1, V9.4 and V9.5. -/
theorem test_trap_load :
    ends (exec .trapLoad (trapAt 0xFFD5 0x08)) (fun t => t.cpu.pc == 0x1235 && t.cpu.sp == 0xFD &&
      t.out == [.native .load]) = true ∧
    ends (exec .trapLoad { trapAt 0xFFD5 0x08 with rom := { size := 0x3FFA, bytes := [] } })
      (fun t => t.cpu == (trapAt 0xFFD5 0x08).cpu && t.out == []) = true ∧
    ends (exec .trapLoad (trapAt 0xFFD5 0x01)) (fun t => t == trapAt 0xFFD5 0x01) = true := by decide

/-- V9.2 and V9.3. -/
theorem test_trap_save :
    ends (exec .trapSave (trapAt 0xFFD8 0x08)) (fun t => t.cpu.pc == 0x1235 && t.cpu.sp == 0xFD &&
      t.out == [.native .save]) = true ∧
    (trapAt 0xFFD6 0x08).trapCheck = trapAt 0xFFD6 0x08 := by decide

/-- V9.6 to V9.8: the return address wraps and the stack stays in its page. -/
theorem test_return_corners :
    ({ strict with cpu := { pc := 0, sp := 0xFE, i := true }, mem := [(0x0100, 0xFF), (0x01FF, 0xFF)] } : State).synthReturn.cpu =
      { pc := 0x0000, sp := 0x00, i := true } ∧
    ({ strict with cpu := { pc := 0, sp := 0xFF, i := true }, mem := [(0x0101, 0xC0)] } : State).synthReturn.cpu =
      { pc := 0xC001, sp := 0x01, i := true } ∧
    ({ strict with cpu := { pc := 0, sp := 0x00, i := true }, mem := [(0x0101, 0xFF), (0x0102, 0x20)] } : State).synthReturn.cpu =
      { pc := 0x2100, sp := 0x02, i := true } := by decide

/-! ## Resets, FLUSH, IDLE (vectors V7.4, V10) -/

theorem test_flush : ends (exec .flush { strict with dirty := true, nvram := [(0, 1)] })
    (fun t => !t.dirty && t.nvram == [(0, 1)]) = true := by decide

theorem test_rst : ends (exec .rst { strict with mclk := 12345, txlen := 1, acc := 7, dirty := true })
    (fun t => t.mclk == 0 && t.txlen == 0 && t.acc == 7 && t.dirty && t.run) = true := by decide

theorem test_por : ends (exec .por { strict with halted := true, acc := 7, mclk := 9, dirty := true, txlen := 3 })
    (fun t => t.cal == Config.chosenEpoch.val && !t.halted && t.acc == 0 && t.mclk == 0 && !t.dirty && t.txlen == 0 &&
      !t.run && t.h24 && !t.vbaten && t.nvram == []) = true := by decide

/-- 10_state.md R41: the CPU's registers are set by its engine's own reset, at `POR` and at `RST`. -/
theorem test_cpu_reset :
    ends (exec .rst { strict with answers := { cpuReset := { pc := some 0xE000, i := some true } } })
      (fun t => t.cpu.pc == 0xE000 && t.cpu.sp == strict.cpu.sp && t.cpu.i) = true ∧
    ends (exec .por { strict with answers := { cpuReset := { pc := some 0xE000, stores := [(0xFFFC, 0x34)] } } })
      (fun t => t.cpu.pc == 0xE000 && t.mem.read 0xFFFC == 0x34) = true := by decide

theorem test_idle : exec .idle strict = .next strict := rfl

/-- A step refuses a reserved word and performs the first line of the trace (30_encoding.md R90, R96). -/
theorem test_step_of_trace :
    stop (step (strict.enqueue 0x900)) = some (.reservedOpWord 0x900) ∧
    ends (step ((strict.enqueue 0x200).enqueue 0x107)) (fun t => t.txlen == 1 && t.trace.length == 1) = true := by decide

/-! ## Witnesses: values that meet the hypotheses of the statements, at the edges of each clause -/

theorem test_witness_DecodeEncodeAgree :
    Config.chosen.Legal ∧ (Instr.rdLow 0x1F).wellFormed = true ∧ (Instr.wrHigh 0x60).wellFormed = true ∧
    decode Config.chosen (.pcm 0xFFD8) = .op .trapSave ∧ (8 ≤ 0x8FF / 256 ∧ ¬ 9 ≤ 0x8FF / 256 ∧ 9 ≤ 0x900 / 256) ∧
    decode Config.chosen (.pcm 0) = .noTrap 0 := by decide

theorem test_witness_SelectorTableDecodes :
    selectorRows.length = 14 ∧
    ([0x00, 0x06, 0x07, 0x08, 0x0F, 0x10, 0x1F, 0x20, 0x3F, 0x40, 0x5F, 0x60, 0x7F, 0x80, 0xFF] : List Byte).map
      (fun s => (selectorRows.filter fun r => s &&& r.2.1 == r.1).map fun r => r.1) =
      [[0x00], [0x06], [0x07], [0x08], [0x08], [0x10], [0x10], [0x20], [0x20], [0x40], [0x40], [0x60], [0x60], [0x80],
        [0x80]] := by decide

theorem test_witness_DinAppendsOrDrops :
    strict.txlen < 16 ∧ ({ strict with txlen := 15 } : State).txlen < 16 ∧ 16 ≤ ({ strict with txlen := 16 } : State).txlen := by
  decide

theorem test_witness_RdReadsAtPointer :
    1 ≤ (holding [0x20] strict).txlen ∧
    decode Config.chosen (.sel .read (holding [0x20] strict).buf[0]) = .op (.rdNv 0) ∧
    1 ≤ (holding (List.replicate 16 0x60) strict).txlen ∧
    decode Config.chosen (.sel .read (holding (List.replicate 16 0x60) strict).buf[0]) = .op (.rdHigh 0x60) := by decide

theorem test_witness_RdWithoutPointer :
    strict.txlen = 0 ∧ strict.cfg.txnUnderflow = .refuse ∧ (base .draw).txlen = 0 ∧
    (base .draw).cfg.txnUnderflow = .draw := by decide

theorem test_witness_WrWritesAtPointer :
    2 ≤ (holding [0x06, 0x24] strict).txlen ∧
    decode Config.chosen (.sel .write (holding [0x06, 0x24] strict).buf[0]) = .op .wrYear ∧
    2 ≤ (holding (List.replicate 16 0x20) strict).txlen := by decide

theorem test_witness_WrWithoutData :
    strict.txlen < 2 ∧ (holding [0x05] strict).txlen < 2 ∧ (holding [0x05] (base .draw)).txlen = 1 ∧
    (holding [0x05] (base .draw)).cfg.txnUnderflow = .draw ∧
    decode Config.chosen (.sel .write (holding [0x05] (base .draw)).buf[0]) = .op .wrMonth := by decide

/-- WrWithoutData with an empty buffer: a drawn selector decodes to a sub-operation, whatever it is. -/
theorem test_witness_WrWithoutData_empty :
    (base .draw).txlen = 0 ∧
    ∃ i, decode Config.chosen (.sel .write (Config.draw (base .draw).draws)) = .op i := ⟨rfl, _, rfl⟩

theorem test_witness_RdSecReturns :
    (date 0 1 1 0 0 59 1).sec.toNat ≤ 59 ∧ 80 ≤ (date 0 1 1 0 0 80 1).sec.toNat ∧
    (date 0 1 1 0 0 159 1).sec.toNat ≤ 159 ∧ 80 ≤ (date 0 1 1 0 0 159 1).sec.toNat ∧ (date 0 1 1 0 0 0 1).sec.toNat ≤ 59 := by decide

theorem test_witness_RdHourReturns :
    strict.h24 = true ∧ (date 0 1 1 23 0 0 1).hr.toNat ≤ 23 ∧ ({ strict with h24 := false } : State).h24 = false := by decide

theorem test_witness_RdHourTable :
    hourTable[(date 0 1 1 0 0 0 1).hr.toNat]? = some (0x00, 0x52) ∧
    hourTable[(date 0 1 1 23 0 0 1).hr.toNat]? = some (0x23, 0x71) := by decide

theorem test_witness_RdMonthReturns :
    1 ≤ (date 0 1 1 0 0 0 1).mon.toNat ∧ (date 0 12 1 0 0 0 1).mon.toNat ≤ 12 := by decide

/-- For WrSecStores, WrMinDayMonthYearStore, WrHourStores, WrWkdayStores, WrNvStores and WrLowHighIgnored: two bytes held,
any data byte; with bit 7 and bit 6 clear and set. -/
theorem test_witness_stores :
    2 ≤ (holding [0, 0x59] strict).txlen ∧ (holding [0, 0x59] strict).buf[1] = 0x59 ∧
    (0x59 : Byte).getLsbD 7 = false ∧ (0xD9 : Byte).getLsbD 7 = true ∧
    (0x23 : Byte).getLsbD 6 = false ∧ 23 = digits ((0x23 : Byte) &&& 0x3F) ∧
    (0x72 : Byte).getLsbD 6 = true ∧ digits ((0x72 : Byte) &&& 0x1F) = 12 ∧ strict.nvram.wf = true := by decide

theorem test_witness_WriteSubsDrawMissingData :
    isWriteSub (.wrNv 63) = true ∧ isWriteSub .wrSec = true ∧ strict.txlen < 2 ∧ (holding [0x20] strict).txlen < 2 := by
  decide

theorem test_witness_BcdRoundTrips :
    (0x99 : Byte).toNat / 16 ≤ 9 ∧ (0x99 : Byte).toNat % 16 ≤ 9 ∧ bcdEnc 99 = 0x99 := by decide

theorem test_witness_HourReadWriteSymmetric :
    (date 0 1 1 23 0 0 1).hr.toNat ≤ 23 ∧
    ends (exec .rdHour (at_ (date 0 1 1 23 0 0 1) strict))
      (fun t => t == afterRead (at_ (date 0 1 1 23 0 0 1) strict) 0x23) = true ∧
    (holding [2, 0x23] strict).txlen = 2 ∧ (holding [2, 0x23] strict).buf[1] = 0x23 ∧
    ends (exec .wrHour (holding [2, 0x23] strict)) (fun _ => true) = true := by decide

theorem test_witness_ReadAfterWrite :
    2 ≤ (holding [0, 0x59] strict).txlen ∧ (holding [0, 0x59] strict).buf[1] = 0x59 ∧ (0x59 : Byte).toNat % 16 ≤ 9 ∧
    (0x59 : Byte).toNat / 16 ≤ 9 ∧ (0x52 : Byte) = (hourTable[0]!).2 ∧ (0x23 : Byte) = (hourTable[23]!).1 := by decide

theorem test_witness_NvramRoundTrip :
    strict.nvram.wf = true ∧ strict.txlen = 0 ∧ (0x1F : Byte).toNat < 0x20 ∧ 0x60 ≤ (0x60 : Byte).toNat := by decide

theorem test_witness_PorInitialises :
    strict.cfg.initSrc = .fixedEpoch ∧ ({ strict.cfg with initSrc := .hostTime } : Config).initSrc = .hostTime := by decide

theorem test_witness_StepAccumulates :
    State.reset.run = false ∧ strict.run = true ∧
    ({ strict with acc := 6 } : State).acc + (1 : Byte).toNat < strict.cfg.cps ∧
    strict.cfg.cps ≤ ({ strict with acc := 7 } : State).acc + (1 : Byte).toNat := by decide

theorem test_witness_StepCounting :
    strict.run = true ∧ ({ strict with acc := 7 } : State).acc < strict.cfg.cps ∧
    ∀ n ∈ ([0, 1, 8] : List Byte), n.toNat ≤ strict.cfg.cps := by decide

/-- For SecondIsOneTick: running, the accumulator below one second, at its largest. -/
theorem test_witness_SecondIsOneTick : strict.run = true ∧ ({ strict with acc := 7 } : State).acc < strict.cfg.cps := by
  decide

/-- For TimeOfDayCarries, WeekdayMovesOnDayCarry, DateCarries, TickKeepsCalValid, DayIs86400Ticks and CalendarPeriod: a
valid calendar, and one at each carry. -/
theorem test_witness_ticks :
    (date 99 12 31 23 59 59 7).Valid ∧ (date 24 2 29 23 59 58 3).Valid ∧ (date 23 2 28 23 59 59 1).Valid ∧
    (date 99 12 31 23 59 59 7).day.toNat = daysInMonth 12 99 ∧ (date 25 4 29 23 59 59 1).Valid ∧
    (date 25 4 29 23 59 59 1).day.toNat < daysInMonth 4 25 ∧ (date 98 12 31 23 59 59 7).yr.toNat < 99 ∧
    (date 0 1 1 22 59 59 1).hr.toNat < 23 ∧ (date 0 1 1 0 58 59 1).min.toNat < 59 := by decide

/-- For YearEndCarries and FebruaryIsLeapAware: a leap year, another, and year 99. -/
theorem test_witness_year_end_and_february :
    (date 99 12 31 23 59 59 4).yr.toNat ≤ 99 ∧ (date 99 12 31 23 59 59 4).day = 31 ∧ (date 99 12 31 23 59 59 4).mon = 12 ∧
    (date 23 2 28 23 59 59 2).day = 28 ∧ (date 23 2 28 23 59 59 2).mon = 2 ∧ (date 23 2 28 23 59 59 2).yr.toNat % 4 ≠ 0 ∧
    (date 24 2 28 23 59 59 2).yr.toNat % 4 = 0 ∧ (date 24 2 29 23 59 59 2).day = 29 ∧
    (date 24 2 29 23 59 59 2).sec = 59 ∧ (date 24 2 29 23 59 59 2).min = 59 ∧ (date 24 2 29 23 59 59 2).hr = 23 := by decide

/-- For MonthLengths: the last day of a month and the day before, a month outside 1 to 12 on either side. -/
theorem test_witness_MonthLengths :
    (date 25 4 30 23 59 59 3).sec.toNat = 59 ∧ (date 25 4 30 23 59 59 3).min.toNat = 59 ∧
    (date 25 4 30 23 59 59 3).hr.toNat = 23 ∧ monthLength 4 25 ≤ (date 25 4 30 23 59 59 3).day.toNat ∧
    (date 25 5 30 23 59 59 3).day.toNat < monthLength 5 25 ∧ monthLength 0 25 = 31 ∧ monthLength 13 25 = 31 ∧
    monthLength 2 24 = 29 ∧ monthLength 2 25 = 28 ∧ monthLength 12 25 = 31 := by decide

/-- For TrapFires. -/
theorem test_witness_TrapFires :
    trapConditions (trapAt 0xFFD5 0x08) (trapAt 0xFFD5 0x08).cfg.loadVec ∧
    trapConditions (trapAt 0xFFD8 0x08) (trapAt 0xFFD8 0x08).cfg.saveVec ∧ (trapAt 0xFFD5 0x08).answers.native = {} :=
  ⟨⟨rfl, rfl, rfl⟩, ⟨rfl, rfl, rfl⟩, rfl⟩

theorem test_witness_TrapNeedsAllThree :
    ¬ trapConditions (trapAt 0xFFD6 0x08) (trapAt 0xFFD6 0x08).cfg.loadVec ∧
    ¬ trapConditions (trapAt 0xFFD8 0x09) (trapAt 0xFFD8 0x09).cfg.saveVec :=
  ⟨fun h => absurd h.1 (by decide), fun h => absurd h.2.2 (by decide)⟩

theorem test_witness_TrapCheckIsDecodedEntry :
    (trapAt 0xFFD5 0x08).cfg.Legal ∧
    decode (trapAt 0xFFD5 0x08).cfg (.pcm (trapAt 0xFFD5 0x08).cpu.pc) = .op .trapLoad ∧
    decode (trapAt 0xFFD6 0x08).cfg (.pcm (trapAt 0xFFD6 0x08).cpu.pc) = .noTrap 0xFFD6 := by decide

/-- For IterRefusedOnceHalted and IterCompletes: halted and not, bus operations that meet their bytes and some
that do not. -/
theorem test_witness_iterations :
    (iterWith [] true false []).halted = false ∧ ({ strict with halted := true } : State).halted = true ∧
    admitted 0 [.din 0x00, .rd] = true ∧ admitted 0 [.din 0x00, .din 0x80, .wr] = true ∧
    admitted 0 [.din 0x00, .wr] = false ∧ admitted 0 [.rd] = false ∧
    strict.cfg.txnUnderflow = .refuse ∧ (base .draw).cfg.txnUnderflow = .draw := by decide

/-- For IterFrame: the instruction's bus operations go through, and each kind of store is at an address of its own. -/
theorem test_witness_IterFrame :
    (iterWith [true] true false [.din 0x00, .rd]).halted = false ∧
    (∃ w, execAll ((iterWith [true] true false [.din 0x00, .rd]).answers.bus.map busInstr)
      (iterWith [true] true false [.din 0x00, .rd]) = .next w) ∧
    trapConditions (trapAt 0xFFD5 0x08) (trapAt 0xFFD5 0x08).cfg.loadVec ∧
    ∀ st ∈ ([(0x20, 1)] : List (Addr × Byte)), st.1.toNat ≠ 0x21 :=
  ⟨rfl, ⟨_, rfl⟩, ⟨rfl, rfl, rfl⟩, fun st h => by rw [List.mem_singleton.mp h]; decide⟩

/-- For IterBusBeforeCycles, IterCallsInOrder, FanOutExactlyN, RefreshAndShutdown and IrqOnlyAtFrames. -/
theorem test_witness_iterations_complete :
    (∃ t, exec (.iter 4) (iterWith [true] true false [.din 0x00, .rd]) = .next t) ∧
    (∃ u t, (iterWith [true] true false []).trapCheck.cpuStep (2 : Byte).toNat = .next u ∧
      exec (.iter 2) (iterWith [true] true false []) = .next t) ∧
    (∃ t, exec (.iter 0) (iterWith [] true false []) = .next t) :=
  ⟨⟨_, rfl⟩, ⟨_, _, rfl, rfl⟩, ⟨_, rfl⟩⟩

theorem test_witness_IrqOnlyAtFrames :
    (∀ n, Instr.rd ≠ .iter n) ∧ (∃ t, exec .rd (holding [0x20] strict) = .next t) :=
  ⟨fun _ h => Instr.noConfusion h, ⟨_, rfl⟩⟩

theorem test_witness_StepRunsDecoded :
    (strict.enqueue 0x107).trace = [ { word := 0x107 } ] ∧ decode strict.cfg (.opw 0x107) = .op (.din 0x07) ∧
    decode strict.cfg (.opw 0x900) = .reserved 0x900 ∧ strict.trace = [] := by decide

theorem test_witness_OnlyReservedOrHaltedRefuse : ((base .draw).enqueue 0x502).cfg.txnUnderflow = .draw := by decide

theorem test_witness_StepKeepsInv :
    (strict.enqueue 0x107).Inv ∧ ({ strict with txlen := 16 } : State).Inv ∧
    ends (step (strict.enqueue 0x107)) (fun _ => true) = true := by decide

theorem test_witness_StepKeepsAccBelowCps :
    255 ≤ ({ strict.cfg with cps := 255 } : Config).cps ∧ 255 ≤ (State.reset.enqueue 0x4FF).cfg.cps ∧
    (State.reset.enqueue 0x4FF).AccOk ∧ ends (step (State.reset.enqueue 0x4FF)) (fun _ => true) = true := by decide

theorem test_witness_OnlyWritesBreakCalValid :
    (date 99 12 31 23 59 59 7).Valid ∧ ends (exec (.step 1) (at_ (date 99 12 31 23 59 59 7) strict)) (fun _ => true) = true ∧
    Instr.step 1 ∉ ([.wr, .wrSec, .wrMin, .wrHour, .wrWkday, .wrDay, .wrMonth, .wrYear] : List Instr) ∧
    BusOp.wr ∉ (iterWith [] true false [.din 0x00, .rd]).answers.bus := by decide

theorem test_witness_ModeAndNvramChangeOnlyByWrite :
    ends (exec .wrHour (holding [2, 0x52] strict)) (fun t => t.h24 != strict.h24) = true ∧
    ends (exec (.wrNv 0) (holding [0x20, 0xA5] strict)) (fun t => t.nvram != strict.nvram) = true := by decide

/-- For IterCallsInOrder, vector V8.8: the `RD` puts out second 10, before the tick of its instruction's cycles, and its
byte stands after `Cpu.step()` and before the first cycle. -/
theorem test_witness_IterCallsInOrder :
    ends (exec (.iter 1) (at_ (date 25 6 15 12 0 10 7) { iterWith [] true false [.din 0x00, .rd] with acc := 99 }))
      (fun t => t.cal.sec == 11 &&
        t.out == [.rtcStep, .storageStep, .inputStep, .videoStep, .dout 0x90, .cpuStep]) = true ∧
    nativeCalls (trapAt 0xFFD5 0x08) = [.native .load] ∧ nativeCalls (trapAt 0xFFD8 0x08) = [.native .save] ∧
    nativeCalls (trapAt 0xFFD6 0x08) = [] := by decide

theorem test_witness_BlockWritesNoCpuMemory :
    storesOf (iterWith [] true false []).answers (.iter 1) = [] ∧
    ends (exec (.iter 1) (iterWith [] true false [])) (fun _ => true) = true ∧
    storesOf { cpuReset := { stores := [(0x20, 1)] } } (.din 0) = [] ∧
    (∀ st ∈ storesOf { cpuReset := { stores := [(0x20, 1)] } } .rst, st.1.toNat ≠ 0x21) :=
  ⟨by decide, by decide, by decide, fun st h => by rw [List.mem_singleton.mp h]; decide⟩

theorem test_witness_HaltedStaysHalted :
    ({ strict with halted := true } : State).halted = true ∧
    ends (exec (.step 1) { strict with halted := true }) (fun _ => true) = true ∧
    ends (exec .rst { strict with halted := true }) (fun _ => true) = true := by decide

end Sys2Proof.Tests
end

section
/-! The encoding family (30_encoding.md R93). The selector table is handled as a table: its rows are pairwise disjoint
by their values and masks alone and together they cover every selector byte, so exactly one row matches; and the
decoder takes the first matching row, which is then that one. -/

namespace Sys2Proof.Proofs

open Sys2Proof.Slice0

/-- If no two entries of a list both satisfy `p`, filtering keeps exactly the entry known to satisfy it. -/
theorem filter_eq_singleton_of_pairwise {α : Type} {p : α → Bool} {l : List α} {a : α}
    (hdis : l.Pairwise fun x y => ¬ (p x = true ∧ p y = true)) (ha : a ∈ l) (hp : p a = true) :
    l.filter p = [a] := by
  induction l with
  | nil => cases ha
  | cons x l ih =>
    obtain ⟨hx, hl⟩ := List.pairwise_cons.mp hdis
    rcases List.mem_cons.mp ha with rfl | hal
    · have hnil : l.filter p = [] := List.filter_eq_nil_iff.mpr fun y hy hpy => hx y hy ⟨hp, hpy⟩
      rw [List.filter_cons_of_pos hp, hnil]
    · have hpx : ¬ p x = true := fun hpx => hx a hal ⟨hpx, hp⟩
      rw [List.filter_cons_of_neg hpx, ih hl hal]

/-- A row of the selector table: value, mask, and the sub-operation under each command. -/
abbrev SelectorRow := Byte × Byte × (Byte → Instr) × (Byte → Instr)

/-- The row matches the selector `s`: `s & mask == value`. -/
def rowMatches (s : Byte) (r : SelectorRow) : Bool := s &&& r.2.1 == r.1

theorem rowMatches_iff {s : Byte} {r : SelectorRow} : rowMatches s r = true ↔ s &&& r.2.1 = r.1 := beq_iff_eq

/-- The sub-operation of a row under a bus command. -/
def rowInstr : BusPort → SelectorRow → Byte → Instr
  | .read, r => r.2.2.1
  | .write, r => r.2.2.2

/-- A selector that matches two rows makes their values agree on the bits both masks look at. -/
theorem values_agree_of_rowMatches {s : Byte} {r q : SelectorRow} (hr : rowMatches s r = true)
    (hq : rowMatches s q = true) : r.1 &&& q.2.1 = q.1 &&& r.2.1 := by
  rw [← rowMatches_iff.mp hr, ← rowMatches_iff.mp hq, BitVec.and_assoc, BitVec.and_assoc, BitVec.and_comm r.2.1]

/-- Any two rows of the table differ on a bit both masks look at. -/
theorem selectorRows_values_differ :
    selectorRows.Pairwise fun r q => r.1 &&& q.2.1 ≠ q.1 &&& r.2.1 := by
  decide

theorem selectorRows_disjoint (s : Byte) :
    selectorRows.Pairwise fun r q => ¬ (rowMatches s r = true ∧ rowMatches s q = true) :=
  selectorRows_values_differ.imp fun hne ⟨hr, hq⟩ => hne (values_agree_of_rowMatches hr hq)

/-- The rows cover all 256 selectors. -/
theorem selectorRows_cover (s : Byte) : ∃ r ∈ selectorRows, rowMatches s r = true := by
  revert s; decide

theorem filter_selectorRows {s : Byte} {r : SelectorRow} (hr : r ∈ selectorRows) (hm : rowMatches s r = true) :
    selectorRows.filter (rowMatches s) = [r] :=
  filter_eq_singleton_of_pairwise (selectorRows_disjoint s) hr hm

/-- The decoder's chain of tests takes the first matching row. It ends in the HIGH sub-operation without a test, where
the table has two more rows with that same sub-operation. -/
theorem decodeSel_eq_first_row (p : BusPort) (s : Byte) :
    decodeSel p s = (selectorRows.filter (rowMatches s)).foldr (fun r _ => rowInstr p r s)
      (rowInstr p (0x80, 0x80, Instr.rdHigh, Instr.wrHigh) s) := by
  rw [List.foldr_filter]
  cases p with
  | read => simp only [selectorRows, List.foldr, rowInstr, ite_self]; rfl
  | write => simp only [selectorRows, List.foldr, rowInstr, ite_self]; rfl

/-- A selector decodes to the sub-operation of any row it matches. -/
theorem decodeSel_of_rowMatches (p : BusPort) {s : Byte} {r : SelectorRow} (hr : r ∈ selectorRows)
    (hm : rowMatches s r = true) : decodeSel p s = rowInstr p r s := by
  rw [decodeSel_eq_first_row, filter_selectorRows hr hm]
  rfl

/-- Settles O3: the matching rows are a single one, by disjointness and cover, and the decoder takes it. -/
theorem selectorTableDecodes : Obligations.SelectorTableDecodes := by
  intro c s
  constructor
  · obtain ⟨r, hr, hm⟩ := selectorRows_cover s
    exact congrArg List.length (filter_selectorRows hr hm)
  · intro r hr hm
    have hrow := rowMatches_iff.mpr hm
    exact ⟨congrArg Decoded.op (decodeSel_of_rowMatches .read hr hrow),
      congrArg Decoded.op (decodeSel_of_rowMatches .write hr hrow)⟩

end Sys2Proof.Proofs
end

section
/-! The scheduler family (40_scheduler.md R127, R128, R132). An iteration puts out, in order, the calls and bytes of the
instruction, the events of its cycles and the events of its tail; what it refreshes, delays and interrupts is then
counted in these three lists. -/

namespace Sys2Proof.Proofs

open Sys2Proof.Machine Sys2Proof.Slice0

/-! ## What an iteration puts out -/

/-- The events of the tail of an iteration, newest first, from the frame aggregate, the continue flag, the CPU's
interrupt-disable flag and the pacing delay (40_scheduler.md R128 to R131). -/
def tailEvents (frame cont masked : Bool) (d : Nat) : List Event :=
  match frame, cont, masked with
  | false, _, _ => []
  | true, false, _ => [.presentationEnd, .refresh]
  | true, true, true => [.delay d, .refresh]
  | true, true, false => [.irq, .delay d, .refresh]

theorem assertIrq_out (s : State) : s.assertIrq.out = (if s.cpu.i then [] else [.irq]) ++ s.out := by
  unfold State.assertIrq; split <;> rfl

theorem iterTail_out (frame : Bool) (s : State) :
    (iterTail frame s).out = tailEvents frame s.answers.cont s.cpu.i s.cfg.pacingDelay ++ s.out := by
  cases frame with
  | false => rfl
  | true =>
    cases hc : s.answers.cont with
    | false => simp [iterTail, tailEvents, hc]
    | true => cases hi : s.cpu.i <;> simp [iterTail, tailEvents, hc, hi, assertIrq_out]

theorem iterTail_halted (frame : Bool) (s : State) :
    (iterTail frame s).halted = (s.halted || (frame && !s.answers.cont)) := by
  cases frame with
  | false => simp [iterTail]
  | true => cases hc : s.answers.cont <;> simp [iterTail, hc]

/-- What `n` elapsed cycles put out, and the parts of the state the tail looks at, which they leave alone. -/
theorem cycle_iterate_out_frame (n : Nat) (s : State) :
    (State.cycle^[n] s).out = (List.replicate n cycleEvents).flatten ++ s.out ∧ (State.cycle^[n] s).cpu = s.cpu ∧
    (State.cycle^[n] s).answers = s.answers ∧ (State.cycle^[n] s).cfg = s.cfg ∧
    (State.cycle^[n] s).halted = s.halted := by
  rw [cycle_iterate, stepRtc_iterate]
  exact ⟨rfl, rfl, rfl, rfl, rfl⟩

/-- An iteration puts out what its instruction puts out, then its cycles' events, all `n` of them, then its tail's; and
it halts exactly where a frame meets a shutdown answer. -/
theorem execIter_out {n : Byte} {s t : State} (h : execIter n s = .next t) :
    ∃ u, s.trapCheck.cpuStep n.toNat = .next u ∧
      t.out = tailEvents (frameOf n.toNat s.answers.frames) s.answers.cont
          (s.answers.cpu.i.getD s.trapCheck.cpu.i) s.cfg.pacingDelay ++
        ((List.replicate n.toNat cycleEvents).flatten ++ u.out) ∧
      t.halted = (frameOf n.toNat s.answers.frames && !s.answers.cont) := by
  obtain ⟨hrun, u, hu, rfl⟩ := execIter_next h
  obtain ⟨-, huh, hucfg, huans, -, -, -, hucpu, -⟩ := cpuStep_next hu
  obtain ⟨hout, hcpu, hans, hcfg, hhalt⟩ := cycle_iterate_out_frame n.toNat u
  refine ⟨u, hu, ?_, ?_⟩
  · rw [iterTail_out, hout, hcpu, hans, hcfg, hucpu, huans, hucfg]
    simp [frameOf]
  · rw [iterTail_halted, hans, hhalt, huans, huh]
    simp [frameOf, hrun]

/-! ## What the instruction of an iteration puts out -/

/-- The events an iteration puts out before its first cycle. -/
def beforeCycles : Event → Bool
  | .native _ | .cpuStep | .dout _ => true
  | _ => false

section
variable {e : Event}

/-- Putting out an event of the instruction leaves the count of every other kind of event. -/
theorem count_cons_of_beforeCycles (he : beforeCycles e = false) {x : Event} (hx : beforeCycles x = true)
    (l : List Event) : (x :: l).count e = l.count e :=
  List.count_cons_of_ne fun hxe => by rw [hxe, he] at hx; cases hx

theorem trapCheck_count (he : beforeCycles e = false) (s : State) : s.trapCheck.out.count e = s.out.count e := by
  rcases trapCheck_cases s with h | ⟨x, h⟩ <;> rw [h]
  exact count_cons_of_beforeCycles (x := .native x) he rfl s.out

theorem busOp_count (he : beforeCycles e = false) {o : BusOp} {s t : State} (h : busOp o s = .next t) :
    t.out.count e = s.out.count e := by
  cases o with
  | din b => cases h; rw [State.push_out]
  | rd =>
    rcases busRead_next h with ⟨-, rfl⟩ | ⟨-, -, rfl⟩
    · exact count_cons_of_beforeCycles he rfl s.out
    · exact count_cons_of_beforeCycles he rfl s.out
  | wr => obtain ⟨rfl, -⟩ := busWrite_next h; rw [performWrite_out]

theorem runBus_count (he : beforeCycles e = false) {os : List BusOp} {s t : State} (h : runBus os s = .next t) :
    t.out.count e = s.out.count e := by
  induction os generalizing s with
  | nil => cases h; rfl
  | cons o os ih =>
    obtain ⟨u, hu, ht⟩ := andThen_eq_next.mp h
    rw [ih ht, busOp_count he hu]

theorem cpuStep_count (he : beforeCycles e = false) {n : Nat} {s t : State} (h : s.cpuStep n = .next t) :
    t.out.count e = s.out.count e :=
  (runBus_count he h).trans (count_cons_of_beforeCycles (x := .cpuStep) he rfl s.out)

/-- How often an iteration puts out an event that is none of its instruction's: as often as its cycles and its tail. -/
theorem execIter_count (he : beforeCycles e = false) {n : Byte} {s t : State} (h : execIter n s = .next t) :
    t.out.count e = s.out.count e + n.toNat * cycleEvents.count e +
      (tailEvents (frameOf n.toNat s.answers.frames) s.answers.cont
        (s.answers.cpu.i.getD s.trapCheck.cpu.i) s.cfg.pacingDelay).count e := by
  obtain ⟨u, hu, hout, -⟩ := execIter_out h
  have hcycles : (List.replicate n.toNat cycleEvents).flatten.count e = n.toNat * cycleEvents.count e := by
    simp [List.count_flatten]
  rw [hout, List.count_append, List.count_append, hcycles, cpuStep_count he hu, trapCheck_count he]
  omega

end

/-! ## The counts of the tail's events -/

theorem tailEvents_count_refresh (frame cont masked : Bool) (d : Nat) :
    (tailEvents frame cont masked d).count .refresh = if frame then 1 else 0 :=
  match frame, cont, masked with
  | false, _, _ => rfl
  | true, false, _ => rfl
  | true, true, true => rfl
  | true, true, false => rfl

theorem tailEvents_count_irq (frame cont masked : Bool) (d : Nat) :
    (tailEvents frame cont masked d).count .irq = if frame ∧ cont = true ∧ masked = false then 1 else 0 :=
  match frame, cont, masked with
  | false, _, _ => rfl
  | true, false, _ => rfl
  | true, true, true => rfl
  | true, true, false => rfl

theorem tailEvents_count_videoStep (frame cont masked : Bool) (d : Nat) :
    (tailEvents frame cont masked d).count .videoStep = 0 :=
  match frame, cont, masked with
  | false, _, _ => rfl
  | true, false, _ => rfl
  | true, true, true => rfl
  | true, true, false => rfl

/-- A shutdown answer leaves no delay. -/
theorem tailEvents_count_delay_of_shutdown (frame masked : Bool) (d : Nat) :
    (tailEvents frame false masked d).count (.delay d) = 0 :=
  match frame with
  | false => rfl
  | true => rfl

/-- Settles O51, by counting each event in what the iteration puts out. -/
theorem refreshAndShutdown : Obligations.RefreshAndShutdown := by
  intro n s t h
  obtain ⟨-, -, -, hhalted⟩ := execIter_out h
  have hiff : t.halted = true ↔ frameOf n.toNat s.answers.frames = true ∧ s.answers.cont = false := by
    simp [hhalted]
  have hirq := execIter_count (e := .irq) rfl h
  rw [tailEvents_count_irq] at hirq
  refine ⟨?_, ?_, ?_, hiff, fun ht => ⟨?_, ?_⟩⟩
  · rw [execIter_count rfl h, tailEvents_count_refresh]; simp [cycleEvents]
  · rw [hirq]; split <;> simp [cycleEvents]
  · rw [execIter_count rfl h, tailEvents_count_videoStep]; simp [cycleEvents]
  · rw [hirq]; simp [cycleEvents, (hiff.mp ht).2]
  · rw [execIter_count rfl h, (hiff.mp ht).2, tailEvents_count_delay_of_shutdown]; simp [cycleEvents]

/-! ## What the other operations put out -/

theorem finishWrite_out {store : Byte → State → State} (h : ∀ d u, (store d u).out = u.out) (s : State) :
    (s.finishWrite store).out = s.out := by
  rw [State.finishWrite, State.endTxn_out, h, State.writeData_out]

theorem writeHour_out (d : Byte) (s : State) : (writeHour d s).out = s.out := by
  rcases writeHour_cases d s with h | h <;> rw [h] <;> rfl

theorem trap_out (s : State) (e : TrapEntry) : (s.trap e).out = s.out ∨ (s.trap e).out = .native e :: s.out := by
  unfold State.trap
  split
  · exact .inr rfl
  · exact .inl rfl

/-- An operation other than an iteration puts out at most one event, and that event is no interrupt. -/
theorem exec_out_of_not_iter {i : Instr} {s t : State} (hi : ∀ n, i ≠ .iter n) (h : exec i s = .next t) :
    t.out = s.out ∨ ∃ e, t.out = e :: s.out ∧ e ≠ .irq := by
  cases i with
  | iter n => exact absurd rfl (hi n)
  | idle => cases h; exact .inl rfl
  | din b => cases h; exact .inl (State.push_out s b)
  | step n => cases h; exact .inl (State.stepRtc_out s n.toNat)
  | rd =>
    rcases busRead_next h with ⟨-, rfl⟩ | ⟨-, -, rfl⟩
    · exact .inr ⟨_, rfl, nofun⟩
    · exact .inr ⟨_, rfl, nofun⟩
  | wr => obtain ⟨rfl, -⟩ := busWrite_next h; exact .inl (performWrite_out s)
  | trapLoad | trapSave =>
    cases h
    refine (trap_out s _).imp_right fun ho => ⟨_, ho, ?_⟩
    nofun
  | wrHour => cases h; exact .inl (finishWrite_out writeHour_out s)
  | wrSec | wrMin | wrWkday | wrDay | wrMonth | wrYear | wrLow | wrNv | wrHigh =>
    cases h
    exact .inl (finishWrite_out (fun _ _ => rfl) s)
  | rdSec | rdMin | rdHour | rdWkday | rdDay | rdMonth | rdYear | rdLow | rdNv | rdHigh | flush | rst | por =>
    cases h
    exact .inr ⟨_, rfl, nofun⟩

/-- Settles O52: the tail's one interrupt is the only one an iteration puts out, and no other operation puts one out. -/
theorem irqOnlyAtFrames : Obligations.IrqOnlyAtFrames := by
  refine ⟨fun n s t h => ?_, fun i s t hi h => ?_⟩
  · rw [execIter_count rfl h, tailEvents_count_irq]; simp [cycleEvents]
  · rcases exec_out_of_not_iter hi h with ho | ⟨e, ho, he⟩
    · rw [ho]
    · rw [ho, List.count_cons_of_ne he]

end Sys2Proof.Proofs
end

section
/-! The Hypercall Trap family (41_hypercall_trap.md R150 to R154). The trap's Boolean gate at an entry is the spec's
three conditions there, and an iteration's check is the trap at the entry whose vector the program counter meets. -/

namespace Sys2Proof.Proofs

open Sys2Proof.Machine Sys2Proof.Slice0

/-- The gate of an entry is the conjunction of R151 to R153 at its vector. -/
theorem trapGate_iff (s : State) (e : TrapEntry) :
    (s.atVector e && s.signatureMatches && s.deviceSelected) = true ↔ trapConditions s (s.vector e) := by
  simp [State.atVector, State.signatureMatches, State.deviceSelected, State.memRead, and_assoc]

theorem trap_of_not_trapConditions {s : State} {e : TrapEntry} (h : ¬ trapConditions s (s.vector e)) :
    s.trap e = s :=
  if_neg fun hgate => h ((trapGate_iff s e).mp hgate)

/-- The check of an iteration is one entry of the trap: `TRAP.LOAD` at its vector, `TRAP.SAVE` elsewhere. -/
theorem trapCheck_eq_trap (s : State) :
    s.trapCheck = if s.atVector .load then s.trap .load else s.trap .save := by
  unfold State.trapCheck State.trap
  cases hload : s.atVector .load with
  | true => simp
  | false => simp

/-- Settles O42: a gate that does not hold leaves the state alone at either entry, and the check is one of the two. -/
theorem trapNeedsAllThree : Obligations.TrapNeedsAllThree := by
  intro s
  refine ⟨fun hload => ?_, fun hsave => ?_, fun hload hsave => ?_⟩
  · exact congrArg Host.Outcome.next (trap_of_not_trapConditions (e := .load) hload)
  · exact congrArg Host.Outcome.next (trap_of_not_trapConditions (e := .save) hsave)
  · rw [trapCheck_eq_trap, trap_of_not_trapConditions (e := .load) hload,
      trap_of_not_trapConditions (e := .save) hsave, ite_self]

end Sys2Proof.Proofs
end

section
/-! The RTC Transactor family (42_rtc_transactor.md R172, R173, R175, R177, R178). A bus command that finds its bytes in
the buffer is one access of the register boundary at `buf[0]`, and that access is the sub-operation `buf[0]` decodes to;
what it leaves alone is then read off the one access. -/

namespace Sys2Proof.Proofs

open Sys2Proof.Machine Sys2Proof.Slice0

/-! ## `DIN` -/

theorem push_of_room {s : State} (h : s.txlen < txCap) (b : Byte) :
    s.push b = { s with buf := s.buf.setIfInBounds s.txlen b, txlen := s.txlen + 1 } := if_pos h

theorem push_of_full {s : State} (h : txCap ≤ s.txlen) (b : Byte) : s.push b = s := if_neg (Nat.not_lt.mpr h)

/-- Settles O4, by the two branches of `push`. -/
theorem dinAppendsOrDrops : Obligations.DinAppendsOrDrops := by
  intro b s
  refine ⟨fun hroom => ⟨_, congrArg Host.Outcome.next (push_of_room hroom b), rfl, fun k hk => ?_⟩, fun hfull => ?_⟩
  · simp only [Vector.getElem_setIfInBounds, eq_comm]
  · exact congrArg Host.Outcome.next (push_of_full hfull b)

/-! ## `RD` -/

theorem busRead_of_pointer {s : State} (h : 1 ≤ s.txlen) :
    s.busRead = .next (s.finishRead (readReg s.buf[0] s)) := if_pos h

/-- Settles O5: the read at `buf[0]` is the read of the sub-operation the selector decodes to. -/
theorem rdReadsAtPointer : Obligations.RdReadsAtPointer := by
  intro c s i hptr hdec
  obtain rfl : decodeReadSel s.buf[0] = i := Decoded.op.inj hdec
  have hrd : exec .rd s = .next (s.finishRead (readReg s.buf[0] s)) := busRead_of_pointer hptr
  exact ⟨hrd.trans (exec_decodeReadSel s.buf[0] s).symm, readReg s.buf[0] s, hrd⟩

/-! ## `WR` -/

theorem busWrite_of_data {s : State} (h : 2 ≤ s.txlen) : s.busWrite = .next s.performWrite := if_pos h

/-- With a selector held, the write is the store at `buf[0]`. -/
theorem performWrite_of_selector {s : State} (h : 1 ≤ s.txlen) :
    s.performWrite = s.finishWrite (writeReg s.buf[0]) := by
  rw [State.performWrite, selector_of_one h]

/-- A write of the register boundary changes only the calendar, the control bits, NVRAM and `dirty`. -/
theorem writeReg_frame (sel d : Byte) (s : State) :
    writeReg sel d s =
      { s with
        cal := (writeReg sel d s).cal, run := (writeReg sel d s).run, h24 := (writeReg sel d s).h24,
        vbaten := (writeReg sel d s).vbaten, nvram := (writeReg sel d s).nvram, dirty := (writeReg sel d s).dirty } := by
  have hcases := writeReg_cases sel d s
  generalize writeReg sel d s = u at hcases ⊢
  rcases hcases with rfl | rfl | rfl | rfl | rfl | rfl | rfl | rfl | ⟨k, -, rfl⟩
  case inr.inr.inl => rcases writeHour_cases d s with h | h <;> rw [h] <;> rfl
  all_goals rfl

/-- Settles O7: the write at `buf[0]` is the write of the sub-operation the selector decodes to, and a write of the
register boundary leaves the rest of the state alone. -/
theorem wrWritesAtPointer : Obligations.WrWritesAtPointer := by
  intro c s i hdata hdec
  obtain rfl : decodeWriteSel s.buf[0] = i := Decoded.op.inj hdec
  have hwr : exec .wr s = .next (s.finishWrite (writeReg s.buf[0])) :=
    (busWrite_of_data hdata).trans
      (congrArg Host.Outcome.next (performWrite_of_selector (Nat.le_of_succ_le hdata)))
  refine ⟨hwr.trans (exec_decodeWriteSel s.buf[0] s).symm, _, hwr, rfl, ?_⟩
  rw [finishWrite_of_two hdata]
  exact congrArg State.endTxn (writeReg_frame s.buf[0] s.buf[1] s)

end Sys2Proof.Proofs
end

section
/-! The register boundary family (43_rtc_registers.md R190 to R195, R198, R200, R202, R204, R212 to R219). A byte read
with flags in it is taken as a sum: a BCD part or a weekday below the lowest flag, then each flag at its own power of
two; single bits and masked fields are then read off that sum. NVRAM is followed through the transactions
`DIN v; DIN d; WR` and `DIN v; RD` from an empty buffer, each of which is the one sub-operation `v` decodes to. -/

namespace Sys2Proof.Proofs

open Sys2Proof.Machine Sys2Proof.Slice0

/-! ## The bytes of the register boundary as sums -/

theorem bcdEnc_eq_bcdByte (v : Nat) : bcdEnc v = bcdByte v := bcdEnc_eq v

theorem bcdDec_eq_digits (b : Byte) : bcdDec b = digits b := bcdDec_eq b

/-- Up to 159 the BCD byte is not truncated. -/
theorem bcdByte_toNat {v : Nat} (h : v ≤ 159) : (bcdByte v).toNat = v / 10 * 16 + v % 10 := by
  rw [bcdByte, BitVec.toNat_ofNat]; omega

/-- A byte that holds the BCD of `v` has the digits of `v`. -/
theorem digits_of_bcd {b : Byte} {v : Nat} (h : b.toNat = v / 10 * 16 + v % 10) : digits b = v := by
  rw [digits, h]; omega

theorem flagAt_eq (f : Bool) (i : Nat) : flagAt f i = f.toNat * 2 ^ i := Nat.shiftLeft_eq _ _

/-- A flag above all bits of `x` is added to it. -/
theorem or_flagAt {x i : Nat} (h : x < 2 ^ i) (f : Bool) : x ||| flagAt f i = x + f.toNat * 2 ^ i := by
  rw [Nat.or_comm, flagAt, ← Nat.shiftLeft_add_eq_or_of_lt h, Nat.shiftLeft_eq, Nat.add_comm]

theorem trunc8_toNat {v : Nat} (h : v < 256) : (trunc8 v).toNat = v := Nat.mod_eq_of_lt h

/-- The bit of a flag in a byte that is a sum of the fields below the flag, the flag, and the fields above it. -/
theorem getLsbD_of_sum {b : Byte} {i x : Nat} {f : Bool} (k : Nat) (hx : x < 2 ^ i)
    (hb : b.toNat = x + f.toNat * 2 ^ i + k * 2 ^ (i + 1)) : b.getLsbD i = f := by
  have hsum : b.toNat = 2 ^ i * (f.toNat + 2 * k) + x := by rw [hb]; ring
  rw [← BitVec.testBit_toNat, hsum, Nat.testBit_two_pow_mul_add _ hx, if_neg (Nat.lt_irrefl i), Nat.sub_self]
  cases f <;> simp

/-- A byte below the weight of a bit has the bit clear. -/
theorem getLsbD_of_toNat_lt {b : Byte} {i : Nat} (h : b.toNat < 2 ^ i) : b.getLsbD i = false :=
  Nat.testBit_lt_two_pow h

theorem and_0x7F_toNat (b : Byte) : (b &&& 0x7F).toNat = b.toNat % 128 := Nat.and_two_pow_sub_one_eq_mod b.toNat 7

theorem and_0x1F_toNat (b : Byte) : (b &&& 0x1F).toNat = b.toNat % 32 := Nat.and_two_pow_sub_one_eq_mod b.toNat 5

/-! ## Reads -/

theorem readSec_eq (s : State) :
    readSec s = BitVec.ofNat 8 ((bcdByte s.cal.sec.toNat).toNat ||| (s.run.toNat * 128)) := by
  rw [readSec, bcdEnc_eq_bcdByte, flagAt_eq]; rfl

/-- Up to 79 the BCD of the seconds stays below `run`. -/
theorem readSec_toNat {s : State} (h : s.cal.sec.toNat ≤ 79) :
    (readSec s).toNat = s.cal.sec.toNat / 10 * 16 + s.cal.sec.toNat % 10 + s.run.toNat * 128 := by
  have hrun := s.run.toNat_le
  rw [readSec, bcdEnc_eq_bcdByte, bcdByte_toNat (by omega), or_flagAt (by omega), trunc8_toNat (by omega)]
  rfl

/-- From 80 on the BCD of the seconds sets bit 7 itself. -/
theorem readSec_bit7 {s : State} (h80 : 80 ≤ s.cal.sec.toNat) (h159 : s.cal.sec.toNat ≤ 159) :
    (readSec s).getLsbD 7 = true := by
  have hsum := bcdByte_toNat h159
  have hbcd : (bcdByte s.cal.sec.toNat).getLsbD 7 = true :=
    getLsbD_of_sum 0 (x := (bcdByte s.cal.sec.toNat).toNat - 128) (by omega) (by rw [Bool.toNat_true]; omega)
  rw [readSec_eq, BitVec.getLsbD_ofNat, Nat.testBit_or, BitVec.testBit_toNat, hbcd]; rfl

/-- Settles O9: below 80 the byte is the sum of its BCD part and `run`, from 80 on the BCD part reaches bit 7. -/
theorem rdSecReturns : Obligations.RdSecReturns := by
  intro s
  refine ⟨readSec s, rfl, readSec_eq s, fun h59 => ?_, readSec_bit7⟩
  have hv := readSec_toNat (s := s) (by omega)
  refine ⟨getLsbD_of_sum 0 (by omega) hv, digits_of_bcd ?_⟩
  rw [and_0x7F_toNat, hv]; omega

theorem finishRead_bcdEnc (s : State) (v : Nat) : s.finishRead (bcdEnc v) = afterRead s (bcdByte v) := by
  rw [bcdEnc_eq_bcdByte]; rfl

/-- Settles O10: the three reads are BCD bytes. -/
theorem rdMinDayYearReturn : Obligations.RdMinDayYearReturn := fun s =>
  ⟨congrArg _ (finishRead_bcdEnc s _), congrArg _ (finishRead_bcdEnc s _), congrArg _ (finishRead_bcdEnc s _)⟩

theorem readHour_24 {s : State} (h : s.h24 = true) : readHour s = bcdByte s.cal.hr.toNat :=
  (if_pos h).trans (bcdEnc_eq_bcdByte _)

/-- The BCD of the hour shown in 12-hour form lies below the PM flag. -/
theorem bcdByte_hour12_lt (hr : Nat) : (bcdByte (hour12 hr)).toNat < 2 ^ 5 := by
  have hhour : hour12 hr ≤ 12 := by unfold hour12; split <;> omega
  rw [bcdByte_toNat (by omega)]; omega

/-- In 12-hour mode the byte is the BCD of the hour shown, the PM flag at bit 5 and a one at bit 6. -/
theorem readHour_12_toNat {s : State} (h : s.h24 = false) :
    (readHour s).toNat = (bcdByte (hour12 s.cal.hr.toNat)).toNat + (isPm s.cal.hr.toNat).toNat * 32 + 64 := by
  have hpm := (isPm s.cal.hr.toNat).toNat_le
  have hbcd := bcdByte_hour12_lt s.cal.hr.toNat
  have hread : readHour s = trunc8
      ((bcdByte (hour12 s.cal.hr.toNat)).toNat ||| flagAt (isPm s.cal.hr.toNat) 5 ||| flagAt true 6) := by
    rw [readHour, h, if_neg Bool.false_ne_true, readHour12, Nat.or_comm, Nat.or_comm 0x40, ← Nat.or_assoc,
      bcdEnc_eq_bcdByte]
    rfl
  rw [hread, or_flagAt hbcd, or_flagAt (by omega)]
  exact trunc8_toNat (by rw [Bool.toNat_true]; omega)

/-- Settles O11: in 24-hour mode the byte is BCD, in 12-hour mode a sum of three fields. -/
theorem rdHourReturns : Obligations.RdHourReturns := by
  intro s
  refine ⟨fun h24 => ⟨readHour s, rfl, readHour_24 h24, fun h23 => ?_⟩, fun h12 => ⟨readHour s, rfl, ?_⟩⟩
  · have hv : (readHour s).toNat < 2 ^ 6 := by rw [readHour_24 h24, bcdByte_toNat (by omega)]; omega
    exact ⟨getLsbD_of_toNat_lt (by omega), getLsbD_of_toNat_lt hv⟩
  · have hv := readHour_12_toNat h12
    have hbcd := bcdByte_hour12_lt s.cal.hr.toNat
    have hpm := (isPm s.cal.hr.toNat).toNat_le
    have hlow : (bcdByte (hour12 s.cal.hr.toNat)).toNat + (isPm s.cal.hr.toNat).toNat * 32 < 2 ^ 6 := by omega
    refine ⟨getLsbD_of_toNat_lt (by omega), getLsbD_of_sum 0 hlow hv, getLsbD_of_sum 1 hbcd hv, ?_⟩
    exact BitVec.eq_of_toNat_eq (y := bcdByte (hour12 s.cal.hr.toNat)) (by rw [and_0x1F_toNat, hv]; omega)

theorem readWkday_toNat (s : State) :
    (readWkday s).toNat = s.cal.wkd.toNat + s.vbaten.toNat * 8 + s.run.toNat * 32 := by
  have hwkd := s.cal.wkd.isLt
  have hvb := s.vbaten.toNat_le
  have hrun := s.run.toNat_le
  rw [readWkday, or_flagAt hwkd, or_flagAt (by omega), trunc8_toNat (by omega)]
  rfl

/-- Settles O13: the byte is a sum of three fields, and bits 4, 6 and 7 lie outside them. -/
theorem rdWkdayReturns : Obligations.RdWkdayReturns := by
  intro s
  have hwkd := s.cal.wkd.isLt
  have hvb := s.vbaten.toNat_le
  have hrun := s.run.toNat_le
  have hv := readWkday_toNat s
  have hlow : s.cal.wkd.toNat + s.vbaten.toNat * 8 < 2 ^ 4 := by omega
  exact ⟨readWkday s, rfl, hv, getLsbD_of_sum (f := false) s.run.toNat hlow (by rw [hv, Bool.toNat_false]; omega),
    getLsbD_of_toNat_lt (by omega), getLsbD_of_toNat_lt (by omega)⟩

theorem readMonth_eq (s : State) :
    readMonth s = BitVec.ofNat 8 ((bcdByte s.cal.mon.toNat).toNat ||| (if s.cal.yr.toNat % 4 = 0 then 32 else 0)) := by
  have hleap : flagAt s.leap 5 = if s.cal.yr.toNat % 4 = 0 then 32 else 0 := by
    rw [State.leap, isLeap]
    split
    case isTrue h => rw [h]; rfl
    case isFalse h => rw [beq_eq_false_iff_ne.mpr h]; rfl
  rw [readMonth, bcdEnc_eq_bcdByte, hleap]; rfl

/-- Up to 19 the BCD of the month stays below the leap flag. -/
theorem readMonth_toNat {s : State} (h : s.cal.mon.toNat ≤ 19) :
    (readMonth s).toNat = s.cal.mon.toNat / 10 * 16 + s.cal.mon.toNat % 10 + s.leap.toNat * 32 := by
  have hleap := s.leap.toNat_le
  rw [readMonth, bcdEnc_eq_bcdByte, bcdByte_toNat (by omega), or_flagAt (by omega), trunc8_toNat (by omega)]
  rfl

/-- Settles O14: for a month of the year the byte is the sum of its BCD part and the leap flag. -/
theorem rdMonthReturns : Obligations.RdMonthReturns := by
  intro s
  refine ⟨readMonth s, rfl, readMonth_eq s, fun _ h12 => ?_⟩
  have hleap := s.leap.toNat_le
  have hv := readMonth_toNat (s := s) (by omega)
  refine ⟨getLsbD_of_sum 0 (f := s.leap) (by omega) hv, digits_of_bcd ?_, getLsbD_of_toNat_lt (by omega),
    getLsbD_of_toNat_lt (by omega)⟩
  rw [and_0x1F_toNat, hv]; omega

/-- Settles O15: the three reads are the raw byte and two constants. -/
theorem rdNvLowHighReturn : Obligations.RdNvLowHighReturn := fun _ => ⟨fun _ => rfl, fun _ => rfl, fun _ => rfl⟩

/-! ## Writes -/

/-- The low seven bits hold at most the digits 7 and 15. -/
theorem digits_low7_le (d : Byte) : digits (d &&& 0x7F) ≤ 85 := by
  rw [digits, and_0x7F_toNat]; omega

theorem writeSec_eq (d : Byte) (s : State) :
    writeSec d s = { s with run := d.getLsbD 7, cal := { s.cal with sec := BitVec.ofNat 8 (digits (d &&& 0x7F)) } } := by
  rw [writeSec, bcdDec_eq_digits]; rfl

theorem stepRtc_of_stopped {s : State} (h : s.run = false) (n : Nat) : s.stepRtc n = s :=
  if_neg (by rw [h]; exact Bool.false_ne_true)

/-- Settles O16: seven bits of BCD fit the register, and the flag stored is the one `STEP` looks at. -/
theorem wrSecStores : Obligations.WrSecStores := by
  rintro s d hdata rfl
  have hsec : (BitVec.ofNat 8 (digits (s.buf[1] &&& 0x7F))).toNat = digits (s.buf[1] &&& 0x7F) :=
    trunc8_toNat (Nat.lt_of_le_of_lt (digits_low7_le _) (by decide))
  have hwr : s.finishWrite writeSec =
      { afterWrite s { s.cal with sec := BitVec.ofNat 8 (digits (s.buf[1] &&& 0x7F)) } with
        run := s.buf[1].getLsbD 7 } := by
    rw [finishWrite_of_two hdata, writeSec_eq]; rfl
  exact ⟨_, congrArg Host.Outcome.next hwr, rfl, hsec, hsec.trans_le (digits_low7_le _),
    fun hstop n => congrArg Host.Outcome.next (stepRtc_of_stopped hstop n.toNat)⟩

/-- Settles O21: both stores are the identity, so only the transaction ends. -/
theorem wrLowHighIgnored : Obligations.WrLowHighIgnored := fun _ _ hdata =>
  ⟨congrArg Host.Outcome.next (finishWrite_of_two hdata writeLow),
    congrArg Host.Outcome.next (finishWrite_of_two hdata writeHigh)⟩

/-! ## Whole transactions from an empty buffer -/

theorem execAll_append {is : List Instr} {s t : State} (h : execAll is s = .next t) (js : List Instr) :
    execAll (is ++ js) s = execAll js t := by
  induction is generalizing s with
  | nil => cases h; rfl
  | cons i is ih =>
    simp only [List.cons_append, execAll] at h ⊢
    cases hi : exec i s with
    | next u => rw [hi] at h; exact ih h
    | fault e => rw [hi] at h; cases h
    | refused e => rw [hi] at h; cases h

/-- `DIN v; RD` from an empty buffer, `RDREG v` of 30_encoding.md R113, is the read `v` decodes to. -/
theorem execAll_rdReg {s t : State} (h : s.txlen = 0) {v : Byte} (ht : exec (decodeReadSel v) (s.push v) = .next t) :
    execAll [.din v, .rd] s = .next t := by
  have htx : 1 ≤ (s.push v).txlen := by simp [h, txCap]
  have hsel : (s.push v).buf[0] = v := by simp [h, txCap]
  have hrd := (rdReadsAtPointer Config.chosen (s.push v) (decodeReadSel v) htx (by rw [hsel]; rfl)).1
  simp only [execAll, show exec (.din v) s = .next (s.push v) from rfl, hrd, ht]

/-- `DIN v; DIN d; WR` from an empty buffer, `WRREG v, d` of 30_encoding.md R113, is the write `v` decodes to, on the
data `d`. -/
theorem execAll_wrReg {s : State} (h : s.txlen = 0) {v d : Byte} {store : Byte → State → State}
    (hstore : ∀ u : State, exec (decodeWriteSel v) u = .next (u.finishWrite store)) :
    execAll [.din v, .din d, .wr] s = .next (store d ((s.push v).push d)).endTxn := by
  have htx : 2 ≤ ((s.push v).push d).txlen := by simp [h, txCap]
  have hsel : ((s.push v).push d).buf[0] = v := by simp [h, txCap]
  have hdata : ((s.push v).push d).buf[1] = d := by simp [h, txCap]
  have hwr := (wrWritesAtPointer Config.chosen ((s.push v).push d) (decodeWriteSel v) htx (by rw [hsel]; rfl)).1
  rw [hstore, finishWrite_of_two htx, hdata] at hwr
  simp only [execAll, show ∀ b u, exec (.din b) u = .next (u.push b) from fun _ _ => rfl, hwr]

/-! ## NVRAM -/

/-- The selector `0x20 + k`, formed as a byte. -/
theorem add_zeroExtend_eq_nvSelector (k : BitVec 6) : (0x20 + k.zeroExtend 8 : Byte) = nvSelector k := by
  revert k; decide

/-- A write at a selector outside the NVRAM region leaves NVRAM alone. -/
theorem writeReg_nvram_of_outside {v : Byte} (h : v.toNat < 0x20 ∨ 0x60 ≤ v.toNat) (d : Byte) (s : State) :
    (writeReg v d s).nvram = s.nvram := by
  unfold writeReg
  split_ifs
  any_goals rfl
  · rcases writeHour_cases d s with e | e <;> rw [e] <;> rfl
  · omega

/-- Settles O26: the transactions are one store and one read of the same NVRAM byte. -/
theorem nvramRoundTrip : Obligations.NvramRoundTrip := by
  intro s hwf hempty
  refine ⟨fun k d => ?_, fun v d hout => ?_, fun n => ⟨_, rfl, State.stepRtc_nvram s n.toNat⟩, _, rfl, rfl⟩
  · obtain ⟨hrdsel, hwrsel⟩ := Laws.decodeSel_nv k
    have hwr := execAll_wrReg hempty (d := d) fun u => congrArg (exec · u) hwrsel
    rw [add_zeroExtend_eq_nvSelector]
    refine ⟨_, (execAll_append hwr _).trans (execAll_rdReg rfl (congrArg (exec · _) hrdsel)), ?_, fun j hj => ?_⟩
    · simp [readNv, writeNv, Memory.read_write hwf]
    · simp [writeNv, Memory.read_write_ne s.nvram d hj]
  · exact ⟨_, execAll_wrReg hempty (exec_decodeWriteSel v), (writeReg_nvram_of_outside hout d _).trans (by simp)⟩

end Sys2Proof.Proofs
end

section
/-! The RTC calendar family (44_rtc_calendar.md R234 to R237, R242). A tick ends in exactly one of seven ways: in the
seconds, the minutes or the hours (`tick_of_sec_lt`, `tick_of_min_lt`, `tick_of_hr_lt`), or, at 23:59:59, in the day, the
month, the year or the wrap of the year. The last four are stated here as whole calendars; every statement of the family
reads its fields off the one that applies. -/

namespace Sys2Proof.Proofs

/-! ## The four ways a tick ends at 23:59:59 -/

section
variable {c : Calendar} (hs : c.sec.toNat = 59) (hm : c.min.toNat = 59) (hh : c.hr.toNat = 23)
include hs hm hh

theorem tick_time_of_day_carry : c.tick.sec = 0 ∧ c.tick.min = 0 ∧ c.tick.hr = 0 := by
  rw [tick_of_day_carry hs hm hh]
  exact carryDay_time _

theorem tick_wkd_of_day_carry : c.tick.wkd = nextWeekday c.wkd := by
  rw [tick_of_day_carry hs hm hh, carryDay_wkd]

/-- A tick that ends in the day of the month. -/
theorem tick_of_day_lt (hd : c.day.toNat < daysInMonth c.mon.toNat c.yr.toNat) :
    c.tick = { c with sec := 0, min := 0, hr := 0, wkd := nextWeekday c.wkd, day := c.day + 1 } := by
  obtain ⟨inMonth, -, -, -⟩ := carryDay_date { c with sec := 0, min := 0, hr := 0 }
  exact (tick_of_day_carry hs hm hh).trans (inMonth hd)

section
variable (hd : daysInMonth c.mon.toNat c.yr.toNat ≤ c.day.toNat)
include hd

/-- A tick that ends in the month. -/
theorem tick_of_mon_lt (hM : c.mon.toNat < 12) :
    c.tick = { c with sec := 0, min := 0, hr := 0, wkd := nextWeekday c.wkd, day := 1, mon := c.mon + 1 } := by
  obtain ⟨-, inYear, -, -⟩ := carryDay_date { c with sec := 0, min := 0, hr := 0 }
  exact (tick_of_day_carry hs hm hh).trans (inYear hd hM)

/-- A tick that ends in the year. -/
theorem tick_of_yr_lt (hM : 12 ≤ c.mon.toNat) (hy : c.yr.toNat < 99) :
    c.tick = { sec := 0, min := 0, hr := 0, wkd := nextWeekday c.wkd, day := 1, mon := 1, yr := c.yr + 1 } := by
  obtain ⟨-, -, nextYear, -⟩ := carryDay_date { c with sec := 0, min := 0, hr := 0 }
  exact (tick_of_day_carry hs hm hh).trans (nextYear hd hM hy)

/-- A tick that wraps the year. -/
theorem tick_of_yr_ge (hM : 12 ≤ c.mon.toNat) (hy : 99 ≤ c.yr.toNat) :
    c.tick = { sec := 0, min := 0, hr := 0, wkd := nextWeekday c.wkd, day := 1, mon := 1, yr := 0 } := by
  obtain ⟨-, -, -, yearWraps⟩ := carryDay_date { c with sec := 0, min := 0, hr := 0 }
  exact (tick_of_day_carry hs hm hh).trans (yearWraps hd hM hy)

/-- The day after the last of the month is the first, whatever the month and the year do. -/
theorem tick_day_of_last : c.tick.day = 1 := by
  rcases Nat.lt_or_ge c.mon.toNat 12 with hM | hM
  · rw [tick_of_mon_lt hs hm hh hd hM]
  rcases Nat.lt_or_ge c.yr.toNat 99 with hy | hy
  · rw [tick_of_yr_lt hs hm hh hd hM hy]
  · rw [tick_of_yr_ge hs hm hh hd hM hy]

end

/-- A day carry changes the day of the month: no month has a single day. -/
theorem tick_day_ne : c.tick.day ≠ c.day := by
  rcases Nat.lt_or_ge c.day.toNat (daysInMonth c.mon.toNat c.yr.toNat) with hd | hd
  · rw [tick_of_day_lt hs hm hh hd]
    intro h
    bv_omega
  · rw [tick_day_of_last hs hm hh hd]
    have hlen := daysInMonth_bounds c.mon.toNat c.yr.toNat
    intro h
    have hfirst : c.day.toNat = 1 := by rw [← h]; rfl
    omega

end

/-- An hour carry clears the seconds and the minutes, whether the hour goes up or the day does. -/
theorem tick_sec_min_of_hour_carry {c : Calendar} (hs : c.sec.toNat = 59) (hm : c.min.toNat = 59)
    (hh : c.hr.toNat ≤ 23) : c.tick.sec = 0 ∧ c.tick.min = 0 := by
  rcases hh.lt_or_eq with hlt | heq
  · rw [tick_of_hr_lt hs hm hlt]
    exact ⟨rfl, rfl⟩
  · obtain ⟨hsec, hmin, -⟩ := tick_time_of_day_carry hs hm heq
    exact ⟨hsec, hmin⟩

/-! ## The statements -/

/-- Settles O33: each case is the way the tick ends there, from the seconds up to the day carry. -/
theorem timeOfDayCarries : Obligations.TimeOfDayCarries := by
  rintro c ⟨-, hm59, hh23, hwkd, -⟩
  refine ⟨tick_of_sec_lt, fun hs => ⟨?_, tick_of_min_lt hs, fun hm => ?_⟩⟩
  · rcases hm59.lt_or_eq with hm | hm
    · rw [tick_of_min_lt hs hm]
    · exact (tick_sec_min_of_hour_carry hs hm hh23).1
  · refine ⟨(tick_sec_min_of_hour_carry hs hm hh23).2, tick_of_hr_lt hs hm, fun hh => ⟨?_, ?_, tick_day_ne hs hm hh⟩⟩
    · exact (tick_time_of_day_carry hs hm hh).2.2
    · rw [tick_wkd_of_day_carry hs hm hh]
      exact nextWeekday_ne c.wkd hwkd

/-- Settles O34: a tick that ends below the day carry is one of three updates that keep the weekday. -/
theorem weekdayMovesOnDayCarry : Obligations.WeekdayMovesOnDayCarry := by
  intro c hs59 hm59 hh23
  refine ⟨fun hcarry => ?_, fun hs hm hh => ?_⟩
  · rcases hs59.lt_or_eq with hs | hs
    · rw [tick_of_sec_lt hs]
    rcases hm59.lt_or_eq with hm | hm
    · rw [tick_of_min_lt hs hm]
    have hh : c.hr.toNat < 23 := hh23.lt_of_ne fun hh => hcarry ⟨hs, hm, hh⟩
    rw [tick_of_hr_lt hs hm hh]
  · have hwkd : c.tick.wkd.toNat = c.wkd.toNat % 7 + 1 := by
      rw [tick_wkd_of_day_carry hs hm hh, nextWeekday_toNat]
    refine ⟨hwkd, hwkd.trans ?_⟩
    have := c.wkd.isLt
    split <;> omega

/-- Settles O35: the four ends of a day carry, by the month's length, month 12 and year 99. -/
theorem dateCarries : Obligations.DateCarries := by
  intro c _ hs hm hh
  refine ⟨fun hd => ?_, fun hd => ⟨tick_day_of_last hs hm hh hd.ge, fun hM => ?_,
    fun hM => ⟨?_, fun hy => ?_, fun hy => ?_⟩⟩⟩
  · rw [tick_of_day_lt hs hm hh hd]
    exact ⟨rfl, rfl, rfl⟩
  · rw [tick_of_mon_lt hs hm hh hd.ge hM]
    exact ⟨rfl, rfl⟩
  · rcases Nat.lt_or_ge c.yr.toNat 99 with hy | hy
    · rw [tick_of_yr_lt hs hm hh hd.ge hM.ge hy]
    · rw [tick_of_yr_ge hs hm hh hd.ge hM.ge hy]
  · rw [tick_of_yr_lt hs hm hh hd.ge hM.ge hy]
  · rw [tick_of_yr_ge hs hm hh hd.ge hM.ge hy.ge]

/-- Settles O37: the last second of December, of 31 days in every year, is a month carry out of month 12. -/
theorem yearEndCarries : Obligations.YearEndCarries := by
  intro c hs hm hh hday hmon hy99
  have hs' : c.sec.toNat = 59 := by rw [hs]; rfl
  have hm' : c.min.toNat = 59 := by rw [hm]; rfl
  have hh' : c.hr.toNat = 23 := by rw [hh]; rfl
  have hM : 12 ≤ c.mon.toNat := by rw [hmon]; exact le_rfl
  have hd : daysInMonth c.mon.toNat c.yr.toNat ≤ c.day.toNat := by rw [hmon, hday]; exact le_rfl
  rcases hy99.lt_or_eq with hy | hy
  · rw [tick_of_yr_lt hs' hm' hh' hd hM hy]
    refine ⟨rfl, rfl, rfl, rfl, rfl, ?_, nextWeekday_toNat _⟩
    rw [(succByte_lt (show c.yr.toNat < 255 by omega)).2]
    omega
  · rw [tick_of_yr_ge hs' hm' hh' hd hM hy.ge, hy]
    exact ⟨rfl, rfl, rfl, rfl, rfl, rfl, nextWeekday_toNat _⟩

end Sys2Proof.Proofs
end

section
/-! Decoding and encoding as inverses (30_encoding.md R91 to R96). Each format is inverted by its own lemma: an
operation word is the word of its two fields, a selector is the code of the sub-operation it decodes to, a program
counter that selects a trap is that trap's vector. -/

namespace Sys2Proof.Proofs

open Sys2Proof.Machine

/-! ## Operation words -/

/-- An operation word is its two fields put together. -/
theorem opWord_opField_operandField (w : OpWord) : opWord (opField w) (operandField w) = w := by
  have := w.isLt
  refine BitVec.eq_of_toNat_eq ?_
  simp only [opWord, opField, operandField, BitVec.toNat_ofNat]
  omega

theorem eq_opWord {w : OpWord} {k : Nat} {b : Byte} (hk : opField w = k) (hb : operandField w = b) :
    w = opWord k b := by
  rw [← hk, ← hb, opWord_opField_operandField]

theorem bareOp_eq_op {w : OpWord} {i j : Instr} : bareOp w i = .op j ↔ operandField w = 0 ∧ i = j := by
  unfold bareOp
  split
  · next h => simp [h]
  · next h => exact ⟨nofun, fun hop => absurd hop.1 h⟩

theorem operandField_eq_zero_iff (w : OpWord) : operandField w = 0 ↔ w.toNat % 256 = 0 := by
  refine BitVec.toNat_inj.symm.trans ?_
  simp [operandField]

theorem bareOp_eq_reserved {w : OpWord} {i : Instr} : bareOp w i = .reserved w ↔ w.toNat % 256 ≠ 0 := by
  rw [Ne, ← operandField_eq_zero_iff]
  unfold bareOp
  split
  · next h => simp [h]
  · next h => exact iff_of_true rfl h

/-- A word that decodes to an instruction is that instruction's word. -/
theorem encode_of_decodeOpw {c : Config} {w : OpWord} {i : Instr} (h : decodeOpw w = .op i) :
    i.wellFormed = true ∧ encode c i = .opw w := by
  unfold decodeOpw at h
  split at h
  case h_1 hop | h_3 hop | h_4 hop | h_7 hop | h_8 hop | h_9 hop =>
    obtain ⟨hzero, rfl⟩ := bareOp_eq_op.mp h
    exact ⟨rfl, congrArg Code.opw (eq_opWord hop hzero).symm⟩
  case h_2 hop | h_5 hop | h_6 hop =>
    cases h
    exact ⟨rfl, congrArg Code.opw (eq_opWord hop rfl).symm⟩
  case h_10 => cases h

/-- The reserved words: an operation code without an operation, or an operand where none is taken (R96). -/
theorem decodeOpw_eq_reserved (w : OpWord) :
    decodeOpw w = .reserved w ↔
      9 ≤ w.toNat / 256 ∨ (w.toNat / 256 ∈ [0, 2, 3, 6, 7, 8] ∧ w.toNat % 256 ≠ 0) := by
  unfold decodeOpw
  split
  case h_1 hop | h_3 hop | h_4 hop | h_7 hop | h_8 hop | h_9 hop =>
    rw [opField] at hop
    simp [bareOp_eq_reserved, hop]
  case h_2 hop | h_5 hop | h_6 hop =>
    rw [opField] at hop
    simp [hop]
  case h_10 =>
    have hcode : ∀ k < 9, w.toNat / 256 ≠ k := by
      intro k hk; interval_cases k <;> assumption
    exact iff_of_true rfl (.inl (Nat.le_of_not_lt fun h => hcode _ h rfl))

/-! ## Selectors -/

/-- The sub-operation a selector decodes to has that selector for its code. -/
theorem encode_decodeSel (c : Config) (p : BusPort) (s : Byte) : encode c (decodeSel p s) = .sel p s := by
  have hreg : ∀ v : Byte, s.toNat = v.toNat → Code.sel p v = Code.sel p s := fun v h =>
    congrArg (Code.sel p) (BitVec.eq_of_toNat_eq h.symm)
  have hnv : ¬ s.toNat ≤ 0x1F → s.toNat ≤ 0x5F → Code.sel p (nvSelector (nvOffset s)) = Code.sel p s := fun _ hle =>
    congrArg (Code.sel p) (BitVec.eq_of_toNat_eq (by
      rw [nvSelector, nvOffset_toNat hle, BitVec.toNat_ofNat, nvBase]; omega))
  cases p with
  | read =>
    rw [decodeSel, decodeReadSel_eq]
    split_ifs with h0 h1 h2 h3 h4 h5 h6 hlow hhigh
    exacts [hreg 0 h0, hreg 1 h1, hreg 2 h2, hreg 3 h3, hreg 4 h4, hreg 5 h5, hreg 6 h6, rfl, hnv hlow hhigh, rfl]
  | write =>
    rw [decodeSel, decodeWriteSel_eq]
    split_ifs with h0 h1 h2 h3 h4 h5 h6 hlow hhigh
    exacts [hreg 0 h0, hreg 1 h1, hreg 2 h2, hreg 3 h3, hreg 4 h4, hreg 5 h5, hreg 6 h6, rfl, hnv hlow hhigh, rfl]

theorem wellFormed_decodeSel (p : BusPort) (s : Byte) : (decodeSel p s).wellFormed = true := by
  cases p with
  | read => revert s; decide
  | write => revert s; decide

/-! ## Program counters -/

theorem encode_of_decodePcm {c : Config} {pc : Addr} {i : Instr} (h : decodePcm c pc = .op i) :
    i.wellFormed = true ∧ encode c i = .pcm pc := by
  unfold decodePcm at h
  split_ifs at h with hload hsave
  · cases h; exact ⟨rfl, congrArg Code.pcm hload.symm⟩
  · cases h; exact ⟨rfl, congrArg Code.pcm hsave.symm⟩

theorem decodePcm_eq_noTrap (c : Config) (pc : Addr) :
    decodePcm c pc = .noTrap pc ↔ pc ≠ c.loadVec ∧ pc ≠ c.saveVec := by
  unfold decodePcm
  split_ifs <;> simp [*]

/-! ## The statements -/

/-- Every well-formed instruction decodes from its own code. -/
theorem encoding_statement : ∀ i : Instr, Laws.Encoding.Statement i
  | .idle => Laws.Encoding.idle
  | .din b => Laws.Encoding.din b
  | .rd => Laws.Encoding.rd
  | .wr => Laws.Encoding.wr
  | .step n => Laws.Encoding.step n
  | .iter n => Laws.Encoding.iter n
  | .flush => Laws.Encoding.flush
  | .rst => Laws.Encoding.rst
  | .por => Laws.Encoding.por
  | .rdSec => Laws.Encoding.rdSec
  | .wrSec => Laws.Encoding.wrSec
  | .rdMin => Laws.Encoding.rdMin
  | .wrMin => Laws.Encoding.wrMin
  | .rdHour => Laws.Encoding.rdHour
  | .wrHour => Laws.Encoding.wrHour
  | .rdWkday => Laws.Encoding.rdWkday
  | .wrWkday => Laws.Encoding.wrWkday
  | .rdDay => Laws.Encoding.rdDay
  | .wrDay => Laws.Encoding.wrDay
  | .rdMonth => Laws.Encoding.rdMonth
  | .wrMonth => Laws.Encoding.wrMonth
  | .rdYear => Laws.Encoding.rdYear
  | .wrYear => Laws.Encoding.wrYear
  | .rdLow s => Laws.Encoding.rdLow s
  | .wrLow s => Laws.Encoding.wrLow s
  | .rdNv k => Laws.Encoding.rdNv k
  | .wrNv k => Laws.Encoding.wrNv k
  | .rdHigh s => Laws.Encoding.rdHigh s
  | .wrHigh s => Laws.Encoding.wrHigh s
  | .trapLoad => Laws.Encoding.trapLoad
  | .trapSave => Laws.Encoding.trapSave

/-- Settles O1: each word stands in a table row of its own. -/
theorem sampleWordsDecode : Obligations.SampleWordsDecode :=
  fun _ => ⟨rfl, rfl, rfl, rfl, rfl, rfl, rfl, rfl, rfl, rfl⟩

/-- Settles O2, format by format. -/
theorem decodeEncodeAgree : Obligations.DecodeEncodeAgree := by
  intro c hc
  refine ⟨fun i hi => encoding_statement i c hc hi, fun k i h => ?_, decodeOpw_eq_reserved, decodePcm_eq_noTrap c⟩
  cases k with
  | opw w => exact encode_of_decodeOpw h
  | sel p s =>
    obtain rfl := Decoded.op.inj h
    exact ⟨wellFormed_decodeSel p s, encode_decodeSel c p s⟩
  | pcm pc => exact encode_of_decodePcm h

end Sys2Proof.Proofs
end

section
/-! The RTC calendar, over many ticks and in the cycle counter (44_rtc_calendar.md R230 to R232, R239 to R244).
Validity of a tick and the month lengths are read off the seven ways a tick ends. A day of ticks is followed through
the second of the day; a period of days through the day of the period, a number that determines the date and grows by
one with each day, modulo 36525. -/

namespace Sys2Proof.Proofs

open Sys2Proof.Machine Sys2Proof.Slice0

/-! ## One tick -/

theorem add_one_toNat {v : Byte} (h : v.toNat < 255) : (v + 1).toNat = v.toNat + 1 := (succByte_lt h).2

theorem one_le_daysInMonth (m y : Nat) : 1 ≤ daysInMonth m y :=
  Nat.le_trans (by decide) (daysInMonth_bounds m y).1

theorem nextWeekday_bounds (w : BitVec 3) : 1 ≤ (nextWeekday w).toNat ∧ (nextWeekday w).toNat ≤ 7 := by
  rw [nextWeekday_toNat]; omega

/-- A day carry keeps every register in its range, whichever way it ends. -/
theorem carryDay_valid {c : Calendar} (hc : c.Valid) : c.carryDay.Valid := by
  obtain ⟨hs, hm, hh, -, -, hM1, hM12, hy99, hd1, hd⟩ := hc
  obtain ⟨hw1, hw7⟩ := nextWeekday_bounds c.wkd
  obtain ⟨inMonth, inYear, nextYear, yearWraps⟩ := carryDay_date c
  have hlen := daysInMonth_bounds c.mon.toNat c.yr.toNat
  rcases hd.lt_or_eq with hd | hd
  · have hday := add_one_toNat (v := c.day) (by omega)
    rw [inMonth hd]
    exact ⟨hs, hm, hh, hw1, hw7, hM1, hM12, hy99, hday ▸ Nat.le_add_left 1 _, hday ▸ hd⟩
  rcases hM12.lt_or_eq with hM | hM
  · have hmon := add_one_toNat (v := c.mon) (by omega)
    rw [inYear hd.ge hM]
    exact ⟨hs, hm, hh, hw1, hw7, hmon ▸ Nat.le_add_left 1 _, hmon ▸ hM, hy99, le_rfl, one_le_daysInMonth _ _⟩
  rcases hy99.lt_or_eq with hy | hy
  · have hyr := add_one_toNat (v := c.yr) (by omega)
    rw [nextYear hd.ge hM.ge hy]
    exact ⟨hs, hm, hh, hw1, hw7, le_rfl, Nat.le_add_left 1 11, hyr ▸ hy, le_rfl, one_le_daysInMonth _ _⟩
  · rw [yearWraps hd.ge hM.ge hy.ge]
    exact ⟨hs, hm, hh, hw1, hw7, le_rfl, Nat.le_add_left 1 11, Nat.zero_le 99, le_rfl, one_le_daysInMonth _ _⟩

/-- Settles O39: a tick moves one register of the time within its range, or is a day carry at 00:00:00. -/
theorem tickKeepsCalValid : Obligations.TickKeepsCalValid := by
  rintro c ⟨hs59, hm59, hh23, hdate⟩
  rcases hs59.lt_or_eq with hs | hs
  · rw [tick_of_sec_lt hs]
    exact ⟨(add_one_toNat (v := c.sec) (by omega)).trans_le hs, hm59, hh23, hdate⟩
  rcases hm59.lt_or_eq with hm | hm
  · rw [tick_of_min_lt hs hm]
    exact ⟨Nat.zero_le 59, (add_one_toNat (v := c.min) (by omega)).trans_le hm, hh23, hdate⟩
  rcases hh23.lt_or_eq with hh | hh
  · rw [tick_of_hr_lt hs hm hh]
    exact ⟨Nat.zero_le 59, Nat.zero_le 59, (add_one_toNat (v := c.hr) (by omega)).trans_le hh, hdate⟩
  · rw [tick_of_day_carry hs hm hh]
    exact carryDay_valid ⟨Nat.zero_le 59, Nat.zero_le 59, Nat.zero_le 23, hdate⟩

theorem februaryLength_eq (y : Nat) : 28 + (isLeap y).toNat = if y % 4 = 0 then 29 else 28 := by
  unfold isLeap
  split
  · next h => rw [h]; rfl
  · next h => rw [beq_eq_false_iff_ne.mpr h]; rfl

/-- The table of R239 is the model's `dim`: the twelve months one by one, then 0 and the months above. -/
theorem daysInMonth_eq_monthLength (m y : Nat) : daysInMonth m y = monthLength m y := by
  by_cases hfeb : m = 2
  · rw [hfeb]; exact februaryLength_eq y
  rcases Nat.lt_or_ge 12 m with h | h
  · rw [monthLength, if_pos (by omega), List.getD_eq_default _ _ (by simp; omega)]
    unfold daysInMonth
    split
    case h_6 => rfl
    all_goals omega
  · interval_cases m
    any_goals rfl
    exact absurd rfl hfeb

/-- Settles O36: the table is `dim`, and a tick at 23:59:59 ends in the day below it and in the month or year
from it on. -/
theorem monthLengths : Obligations.MonthLengths := by
  refine ⟨daysInMonth_eq_monthLength, fun c hs hm hh => ?_⟩
  rw [← daysInMonth_eq_monthLength]
  refine ⟨fun hd => ?_, fun hd => ⟨tick_day_of_last hs hm hh hd, ?_⟩⟩
  · have hlen := daysInMonth_bounds c.mon.toNat c.yr.toNat
    rw [tick_of_day_lt hs hm hh hd]
    exact ⟨add_one_toNat (by omega), rfl, rfl⟩
  · rcases Nat.lt_or_ge c.mon.toNat 12 with hM | hM
    · rw [tick_of_mon_lt hs hm hh hd hM, if_pos hM]
      exact add_one_toNat (by omega)
    rw [if_neg (by omega)]
    rcases Nat.lt_or_ge c.yr.toNat 99 with hy | hy
    · rw [tick_of_yr_lt hs hm hh hd hM hy]; rfl
    · rw [tick_of_yr_ge hs hm hh hd hM hy]; rfl

/-- Settles O38: February's length decides between the day and the month, and month 2 is below 12. -/
theorem februaryIsLeapAware : Obligations.FebruaryIsLeapAware := by
  intro c hs hm hh hmon
  replace hs : c.sec.toNat = 59 := by rw [hs]; rfl
  replace hm : c.min.toNat = 59 := by rw [hm]; rfl
  replace hh : c.hr.toNat = 23 := by rw [hh]; rfl
  have hM : c.mon.toNat < 12 := by rw [hmon]; decide
  have hlen : daysInMonth c.mon.toNat c.yr.toNat = if c.yr.toNat % 4 = 0 then 29 else 28 := by
    rw [hmon]; exact februaryLength_eq _
  have hlast (hd : daysInMonth c.mon.toNat c.yr.toNat ≤ c.day.toNat) : c.tick.day = 1 ∧ c.tick.mon = 3 := by
    rw [tick_of_mon_lt hs hm hh hd hM, hmon]
    exact ⟨rfl, rfl⟩
  obtain ⟨hsec, hmin, hhr⟩ := tick_time_of_day_carry hs hm hh
  refine ⟨fun hday hy => hlast ?_, fun hday hy => ?_, fun hday hy => hlast ?_, hsec, hmin, hhr, ?_⟩
  · rw [hlen, if_neg hy, hday]; decide
  · rw [tick_of_day_lt hs hm hh (by rw [hlen, if_pos hy, hday]; decide), hday, hmon]
    exact ⟨rfl, rfl⟩
  · rw [hlen, if_pos hy, hday]; decide
  · rcases Nat.lt_or_ge c.day.toNat (daysInMonth c.mon.toNat c.yr.toNat) with hd | hd
    · rw [tick_of_day_lt hs hm hh hd]
    · rw [tick_of_mon_lt hs hm hh hd hM]

/-! ## A day of ticks -/

/-- The calendar's date at second `x` of the day. -/
def atSecond (c : Calendar) (x : Nat) : Calendar :=
  { c with sec := BitVec.ofNat 8 (x % 60), min := BitVec.ofNat 8 (x / 60 % 60), hr := BitVec.ofNat 8 (x / 3600) }

/-- The second of the day a calendar stands at. -/
def secondOfDay (c : Calendar) : Nat := c.hr.toNat * 3600 + c.min.toNat * 60 + c.sec.toNat

theorem byte_toNat {v : Nat} (h : v < 256) : (BitVec.ofNat 8 v).toNat = v := Nat.mod_eq_of_lt h

theorem byte_succ (v : Nat) : BitVec.ofNat 8 v + 1 = BitVec.ofNat 8 (v + 1) := (BitVec.ofNat_add v 1).symm

/-- A calendar with its time in range stands at its second of the day. -/
theorem atSecond_secondOfDay {c : Calendar} (hs : c.sec.toNat ≤ 59) (hm : c.min.toNat ≤ 59) :
    atSecond c (secondOfDay c) = c := by
  have hsec : secondOfDay c % 60 = c.sec.toNat := by rw [secondOfDay]; omega
  have hmin : secondOfDay c / 60 % 60 = c.min.toNat := by rw [secondOfDay]; omega
  have hhr : secondOfDay c / 3600 = c.hr.toNat := by rw [secondOfDay]; omega
  simp only [atSecond, hsec, hmin, hhr, BitVec.ofNat_toNat, BitVec.setWidth_eq]

/-- Before the last second of the day a tick moves to the next second. -/
theorem tick_atSecond (c : Calendar) {x : Nat} (hx : x + 1 < 86400) : (atSecond c x).tick = atSecond c (x + 1) := by
  have hsec : (atSecond c x).sec.toNat = x % 60 := byte_toNat (by omega)
  have hmin : (atSecond c x).min.toNat = x / 60 % 60 := byte_toNat (by omega)
  have hhr : (atSecond c x).hr.toNat = x / 3600 := byte_toNat (by omega)
  by_cases hs : x % 60 < 59
  · rw [tick_of_sec_lt (by omega)]
    simp only [atSecond, byte_succ, show (x + 1) % 60 = x % 60 + 1 by omega, show (x + 1) / 60 = x / 60 by omega,
      show (x + 1) / 3600 = x / 3600 by omega]
  by_cases hm : x / 60 % 60 < 59
  · rw [tick_of_min_lt (by omega) (by omega)]
    simp only [atSecond, byte_succ, show (x + 1) % 60 = 0 by omega, show (x + 1) / 60 % 60 = x / 60 % 60 + 1 by omega,
      show (x + 1) / 3600 = x / 3600 by omega]
    rfl
  · rw [tick_of_hr_lt (by omega) (by omega) (by omega)]
    simp only [atSecond, byte_succ, show (x + 1) % 60 = 0 by omega, show (x + 1) / 60 % 60 = 0 by omega,
      show (x + 1) / 3600 = x / 3600 + 1 by omega]
    rfl

/-- A day carry does not look at the time of day. -/
theorem carryDay_of_time (c : Calendar) (s m h : Byte) :
    ({ c with sec := s, min := m, hr := h } : Calendar).carryDay = { c.carryDay with sec := s, min := m, hr := h } := by
  unfold Calendar.carryDay Calendar.carryMonth Calendar.carryYear
  simp only
  split_ifs <;> rfl

/-- At the last second of the day a tick is the day carry, at the first second. -/
theorem tick_atSecond_last (c : Calendar) : (atSecond c 86399).tick = atSecond c.carryDay 0 := by
  rw [tick_of_day_carry rfl rfl rfl]
  exact carryDay_of_time c 0 0 0

theorem ticks_add (m n : Nat) (c : Calendar) : ticks (m + n) c = ticks m (ticks n c) :=
  Function.iterate_add_apply Calendar.tick m n c

theorem ticks_atSecond (c : Calendar) {x k : Nat} (h : x + k < 86400) :
    ticks k (atSecond c x) = atSecond c (x + k) := by
  induction k with
  | zero => rfl
  | succ k ih => rw [Nat.add_comm k 1, ticks_add, ih (by omega), Nat.add_comm 1 k]; exact tick_atSecond c h

theorem nextDay_eq_carryDay (c : Calendar) : nextDay c = c.carryDay := by
  obtain ⟨inMonth, inYear, nextYear, yearWraps⟩ := carryDay_date c
  unfold nextDay
  split_ifs with hd hM hy
  · exact (inMonth hd).symm
  · exact (inYear (Nat.le_of_not_lt hd) hM).symm
  · exact (nextYear (Nat.le_of_not_lt hd) (Nat.le_of_not_lt hM) hy).symm
  · exact (yearWraps (Nat.le_of_not_lt hd) (Nat.le_of_not_lt hM) (Nat.le_of_not_lt hy)).symm

/-- Settles O40: from second `x`, `86399 - x` ticks reach the last second, one more the first second of the next day,
and `x` more second `x` of it. -/
theorem dayIs86400Ticks : Obligations.DayIs86400Ticks := by
  rintro c ⟨hs, hm, hh, -⟩
  have hx : secondOfDay c < 86400 := by rw [secondOfDay]; omega
  obtain ⟨hsec, hmin, hhr⟩ := carryDay_time c
  calc ticks 86400 c
      = ticks (secondOfDay c + 1 + (86399 - secondOfDay c)) (atSecond c (secondOfDay c)) := by
        rw [atSecond_secondOfDay hs hm]; congr 1; omega
    _ = ticks (secondOfDay c) (atSecond c 86399).tick := by
        rw [ticks_add, ticks_atSecond c (by omega), Nat.add_sub_cancel' (by omega), ticks_add]; rfl
    _ = atSecond c.carryDay (secondOfDay c.carryDay) := by
        rw [tick_atSecond_last, ticks_atSecond _ (by omega), Nat.zero_add]; simp only [secondOfDay, hsec, hmin, hhr]
    _ = nextDay c := by
        rw [atSecond_secondOfDay (by rwa [hsec]) (by rwa [hmin]), nextDay_eq_carryDay]

/-! ## The period -/

/-- The days of the period before the first of January of year `y`. -/
def yearStart (y : Nat) : Nat := 365 * y + (y + 3) / 4

/-- The days of year `y` before the first of month `m`. -/
def monthStart (y m : Nat) : Nat := ∑ k ∈ Finset.Ico 1 m, daysInMonth k y

/-- Which day of the period a calendar stands at, from 1 to 36525. -/
def dayOfPeriod (c : Calendar) : Nat :=
  yearStart c.yr.toNat + (monthStart c.yr.toNat c.mon.toNat + c.day.toNat)

theorem monthStart_succ (y : Nat) {m : Nat} (h : 1 ≤ m) : monthStart y (m + 1) = monthStart y m + daysInMonth m y :=
  Finset.sum_Ico_succ_top h fun k => daysInMonth k y

theorem monthStart_one (y : Nat) : monthStart y 1 = 0 := rfl

theorem monthStart_mono (y : Nat) : Monotone (monthStart y) := fun _ _ h =>
  Finset.sum_le_sum_of_subset (Finset.Ico_subset_Ico_right h)

/-- A year is as long as its twelve months. -/
theorem yearStart_succ (y : Nat) : yearStart (y + 1) = yearStart y + monthStart y 13 := by
  have hfeb := februaryLength_eq y
  have hyear : monthStart y 13 = 365 + (isLeap y).toNat := by
    simp [monthStart, Finset.sum_Ico_succ_top, daysInMonth]; omega
  rw [hyear, yearStart, yearStart]
  split at hfeb <;> omega

theorem yearStart_mono : Monotone yearStart := monotone_nat_of_le_succ fun y => by
  rw [yearStart_succ]; exact Nat.le_add_right _ _

section
variable {c : Calendar} (hc : c.Valid)
include hc

theorem one_le_day : 1 ≤ c.day.toNat := by
  obtain ⟨-, -, -, -, -, -, -, -, hd1, -⟩ := hc
  exact hd1

/-- The day of a valid date lies in its month. -/
theorem monthStart_add_day_le :
    monthStart c.yr.toNat c.mon.toNat + c.day.toNat ≤ monthStart c.yr.toNat (c.mon.toNat + 1) := by
  obtain ⟨-, -, -, -, -, hM1, -, -, -, hd⟩ := hc
  rw [monthStart_succ _ hM1]; omega

/-- The day of a valid date lies in its year. -/
theorem dayOfPeriod_le : dayOfPeriod c ≤ yearStart (c.yr.toNat + 1) := by
  have hmonth := monthStart_add_day_le hc
  obtain ⟨-, -, -, -, -, -, hM12, -⟩ := hc
  have hyear := monthStart_mono c.yr.toNat (show c.mon.toNat + 1 ≤ 13 by omega)
  rw [dayOfPeriod, yearStart_succ]; omega

theorem dayOfPeriod_bounds : 1 ≤ dayOfPeriod c ∧ dayOfPeriod c ≤ 36525 := by
  have hle := dayOfPeriod_le hc
  have hd1 := one_le_day hc
  obtain ⟨-, -, -, -, -, -, -, hy99, -⟩ := hc
  have hmono := yearStart_mono (show c.yr.toNat + 1 ≤ 100 by omega)
  have h100 : yearStart 100 = 36525 := rfl
  rw [dayOfPeriod] at hle ⊢
  omega

/-- A day carry moves the day of the period by one, and from its last day to its first. -/
theorem dayOfPeriod_carryDay : dayOfPeriod c.carryDay ≡ dayOfPeriod c + 1 [MOD 36525] := by
  obtain ⟨-, -, -, -, -, hM1, hM12, hy99, hd1, hd⟩ := hc
  obtain ⟨inMonth, inYear, nextYear, yearWraps⟩ := carryDay_date c
  have hlen := daysInMonth_bounds c.mon.toNat c.yr.toNat
  have hmonth := monthStart_succ c.yr.toNat hM1
  rcases hd.lt_or_eq with hd | hd
  · rw [inMonth hd, dayOfPeriod, dayOfPeriod, add_one_toNat (by omega)]
    rfl
  rcases hM12.lt_or_eq with hM | hM
  · rw [inYear hd.ge hM, dayOfPeriod, dayOfPeriod, add_one_toNat (by omega), hmonth, hd]
    rfl
  have hyear := yearStart_succ c.yr.toNat
  rw [hM] at hmonth hd
  have hlast : dayOfPeriod c + 1 = yearStart (c.yr.toNat + 1) + 1 := by
    rw [dayOfPeriod, hyear, hmonth, hM, hd]
  rcases hy99.lt_or_eq with hy | hy
  · rw [hlast, nextYear (by rw [hM]; exact hd.ge) hM.ge hy, dayOfPeriod, add_one_toNat (by omega)]
    rfl
  · rw [hlast, yearWraps (by rw [hM]; exact hd.ge) hM.ge hy.ge, hy]
    show yearStart 0 + (monthStart 0 1 + 1) ≡ yearStart 100 + 1 [MOD 36525]
    rw [monthStart_one]; rfl

end

/-- Where `f` starts blocks one after another, a place in a block determines the block. -/
theorem eq_of_block {f : Nat → Nat} (hf : Monotone f) {m n d e : Nat} (hd1 : 1 ≤ d) (he1 : 1 ≤ e)
    (hd : f m + d ≤ f (m + 1)) (he : f n + e ≤ f (n + 1)) (h : f m + d = f n + e) : m = n ∧ d = e := by
  obtain hlt | rfl | hlt := Nat.lt_trichotomy m n
  · have := hf (show m + 1 ≤ n from hlt); omega
  · omega
  · have := hf (show n + 1 ≤ m from hlt); omega

/-- The day of the period determines the date. -/
theorem date_eq_of_dayOfPeriod {c d : Calendar} (hc : c.Valid) (hd : d.Valid) (h : dayOfPeriod c = dayOfPeriod d) :
    c.yr = d.yr ∧ c.mon = d.mon ∧ c.day = d.day := by
  obtain ⟨hyr, hrest⟩ := eq_of_block yearStart_mono (Nat.le_add_left_of_le (one_le_day hc))
    (Nat.le_add_left_of_le (one_le_day hd)) (dayOfPeriod_le hc) (dayOfPeriod_le hd) h
  have hcm := monthStart_add_day_le hc
  rw [hyr] at hrest hcm
  obtain ⟨hmon, hday⟩ := eq_of_block (monthStart_mono _) (one_le_day hc) (one_le_day hd) hcm
    (monthStart_add_day_le hd) hrest
  exact ⟨BitVec.eq_of_toNat_eq hyr, BitVec.eq_of_toNat_eq hmon, BitVec.eq_of_toNat_eq hday⟩

/-- `k` day carries from a valid calendar, register by register, the date by its day of the period. -/
theorem carryDay_iterate (k : Nat) {c : Calendar} (hc : c.Valid) :
    (Calendar.carryDay^[k] c).Valid ∧ dayOfPeriod (Calendar.carryDay^[k] c) ≡ dayOfPeriod c + k [MOD 36525] ∧
    (Calendar.carryDay^[k] c).wkd = nextWeekday^[k] c.wkd ∧ (Calendar.carryDay^[k] c).sec = c.sec ∧
    (Calendar.carryDay^[k] c).min = c.min ∧ (Calendar.carryDay^[k] c).hr = c.hr := by
  induction k with
  | zero => exact ⟨hc, rfl, rfl, rfl, rfl, rfl⟩
  | succ k ih =>
    obtain ⟨hvalid, hday, hwkd, hsec, hmin, hhr⟩ := ih
    obtain ⟨hsec', hmin', hhr'⟩ := carryDay_time (Calendar.carryDay^[k] c)
    rw [Function.iterate_succ_apply', Function.iterate_succ_apply', carryDay_wkd, hwkd, hsec', hmin', hhr']
    exact ⟨carryDay_valid hvalid, (dayOfPeriod_carryDay hvalid).trans (hday.add_right 1), rfl, hsec, hmin, hhr⟩

/-- After a whole number of periods only the weekday can differ. -/
theorem carryDay_iterate_periods (j : Nat) {c : Calendar} (hc : c.Valid) :
    Calendar.carryDay^[36525 * j] c = { c with wkd := nextWeekday^[36525 * j] c.wkd } := by
  obtain ⟨hvalid, hday, hwkd, hsec, hmin, hhr⟩ := carryDay_iterate (36525 * j) hc
  have hmod : dayOfPeriod (Calendar.carryDay^[36525 * j] c) ≡ dayOfPeriod c [MOD 36525] :=
    hday.trans (Nat.ModEq.symm (by simp [Nat.ModEq]))
  have heq : dayOfPeriod (Calendar.carryDay^[36525 * j] c) = dayOfPeriod c := by
    have h1 := dayOfPeriod_bounds hvalid
    have h2 := dayOfPeriod_bounds hc
    rw [Nat.ModEq] at hmod
    omega
  obtain ⟨hyr, hmon, hday⟩ := date_eq_of_dayOfPeriod hvalid hc heq
  rw [← hwkd, ← hsec, ← hmin, ← hhr, ← hyr, ← hmon, ← hday]

/-- 86400 ticks are one day carry, and so are each 86400 of many. -/
theorem ticks_days (k : Nat) {c : Calendar} (hc : c.Valid) : ticks (86400 * k) c = Calendar.carryDay^[k] c := by
  induction k generalizing c with
  | zero => rfl
  | succ k ih =>
    rw [Nat.mul_succ, ticks_add, dayIs86400Ticks c hc, nextDay_eq_carryDay, ih (carryDay_valid hc),
      Function.iterate_succ_apply]

theorem ticks_periods (j : Nat) {c : Calendar} (hc : c.Valid) :
    ticks (j * periodSeconds) c = { c with wkd := nextWeekday^[36525 * j] c.wkd } := by
  rw [show j * periodSeconds = 86400 * (36525 * j) by rw [periodSeconds]; ring, ticks_days _ hc,
    carryDay_iterate_periods j hc]

/-- The weekdays 1 to 7 come back every seven days and not after six. -/
theorem nextWeekday_seven : ∀ w : BitVec 3, 1 ≤ w.toNat → nextWeekday^[7] w = w ∧ nextWeekday^[6] w ≠ w := by decide

/-- Settles O41: a period is a whole number of days, 6 of them over whole weeks. -/
theorem calendarPeriod : Obligations.CalendarPeriod := by
  intro c hc
  obtain ⟨-, -, -, hw1, -⟩ := id hc
  obtain ⟨h7, h6⟩ := nextWeekday_seven c.wkd hw1
  have hweeks : ∀ k, nextWeekday^[7 * k] c.wkd = c.wkd := fun k => by
    rw [Function.iterate_mul]; exact Function.iterate_fixed h7 k
  refine ⟨⟨nextWeekday^[36525 * 1] c.wkd, ?_, ?_⟩, ?_⟩
  · rw [← ticks_periods 1 hc, Nat.one_mul]
  · rw [show 36525 * 1 = 6 + 7 * 5217 by rfl, Function.iterate_add_apply, hweeks]; exact h6
  · rw [ticks_periods 7 hc, Nat.mul_comm, hweeks]

/-! ## The cycle counter -/

theorem stepRtc_of_lt {s : State} {n : Nat} (hrun : s.run = true) (h : s.acc + n < s.cfg.cps) :
    s.stepRtc n = { s with acc := s.acc + n } :=
  (if_pos hrun).trans (if_neg (Nat.not_le.mpr h))

theorem stepRtc_of_ge {s : State} {n : Nat} (hrun : s.run = true) (h : s.cfg.cps ≤ s.acc + n) :
    s.stepRtc n = { s with acc := s.acc + n - s.cfg.cps, cal := s.cal.tick } :=
  (if_pos hrun).trans (if_pos h)

/-- Settles O30, by the three branches of `STEP`. -/
theorem stepAccumulates : Obligations.StepAccumulates := fun n s =>
  ⟨s.stepRtc n.toNat, rfl, fun h => stepRtc_of_stopped h n.toNat, stepRtc_of_lt, stepRtc_of_ge⟩

/-- Of at most one second, a `STEP` divides what the accumulator then holds by `CPS`. -/
theorem stepRtc_of_le {s : State} {n : Nat} (hrun : s.run = true) (hacc : s.acc < s.cfg.cps) (hn : n ≤ s.cfg.cps) :
    s.stepRtc n = { s with acc := (s.acc + n) % s.cfg.cps, cal := ticks ((s.acc + n) / s.cfg.cps) s.cal } := by
  rcases Nat.lt_or_ge (s.acc + n) s.cfg.cps with h | h
  · rw [stepRtc_of_lt hrun h, Nat.mod_eq_of_lt h, Nat.div_eq_of_lt h]; rfl
  · have hrest : s.acc + n - s.cfg.cps < s.cfg.cps := by omega
    rw [stepRtc_of_ge hrun h, Nat.mod_eq_sub_mod h, Nat.mod_eq_of_lt hrest,
      Nat.div_eq_sub_div (Nat.zero_lt_of_lt hacc) h, Nat.div_eq_of_lt hrest]
    rfl

/-- Settles O31, by induction on the operations: quotients add up, and each remainder is what the next `STEP` starts
from. -/
theorem stepCounting : Obligations.StepCounting := by
  intro ns s hrun hacc hle
  induction ns generalizing s with
  | nil => simp [execAll, ticks, Nat.mod_eq_of_lt hacc, Nat.div_eq_of_lt hacc]
  | cons n ns ih =>
    obtain ⟨hn, hns⟩ := List.forall_mem_cons.mp hle
    have hpos : 0 < s.cfg.cps := Nat.zero_lt_of_lt hacc
    have hstep : exec (.step n) s = .next _ := congrArg Host.Outcome.next (stepRtc_of_le hrun hacc hn)
    have hdiv : ∀ x m, (x % s.cfg.cps + m) / s.cfg.cps + x / s.cfg.cps = (x + m) / s.cfg.cps := fun x m => by
      have := Nat.mod_add_div x s.cfg.cps
      rw [← Nat.add_mul_div_left _ _ hpos]; congr 1; omega
    simp only [List.map_cons, execAll, hstep, List.sum_cons]
    refine (ih _ ?_ ?_ ?_).trans ?_
    · exact hrun
    · exact Nat.mod_lt _ hpos
    · exact hns
    · simp only [← ticks_add, hdiv, Nat.mod_add_mod, ← Nat.add_assoc]

/-- Settles O32: `CPS` cycles are one second whatever the accumulator holds. -/
theorem secondIsOneTick : Obligations.SecondIsOneTick := by
  intro s hrun hacc
  have hpos : 0 < s.cfg.cps := Nat.zero_lt_of_lt hacc
  have h := stepCounting (List.replicate s.cfg.cps 1) s hrun hacc fun n hn => by
    rw [List.eq_of_mem_replicate hn]; exact hpos
  rw [List.map_replicate, List.map_replicate, List.sum_replicate] at h
  rw [h]
  simp [Nat.mod_eq_of_lt hacc, Nat.add_div_right _ hpos, Nat.div_eq_of_lt hacc]
  rfl

end Sys2Proof.Proofs
end

section
/-! The parts of an iteration (40_scheduler.md R120 to R132): the state its instruction's bus operations meet, what
the trap check and the tail do to CPU memory, and the rule that an invariant of every part is one of the iteration. -/

namespace Sys2Proof.Proofs

open Sys2Proof.Machine Sys2Proof.Slice0

/-! ## Before the bus operations -/

/-- The state in which the bus operations of an iteration's instruction are performed. -/
def beforeBus (n : Nat) (s : State) : State :=
  { (s.trapCheck.emit .cpuStep).applyCpu s.answers.cpu with mclk := s.mclk + n }

theorem cpuStep_eq_runBus (n : Nat) (s : State) : s.trapCheck.cpuStep n = runBus s.answers.bus (beforeBus n s) := by
  rw [State.cpuStep, beforeBus, State.trapCheck_answers, State.trapCheck_mclk]

/-- Up to its bus operations an iteration touches the machine clock, the external CPU, its memory and the events. -/
theorem beforeBus_frame (n : Nat) (s : State) :
    beforeBus n s = { s with mclk := s.mclk + n, cpu := (beforeBus n s).cpu, mem := (beforeBus n s).mem,
                             out := (beforeBus n s).out } := by
  obtain ⟨c, m, o, h⟩ := trapCheck_frame s
  rw [beforeBus, h]
  rfl

@[simp] theorem beforeBus_cal (n : Nat) (s : State) : (beforeBus n s).cal = s.cal := by rw [beforeBus_frame]
@[simp] theorem beforeBus_h24 (n : Nat) (s : State) : (beforeBus n s).h24 = s.h24 := by rw [beforeBus_frame]
@[simp] theorem beforeBus_nvram (n : Nat) (s : State) : (beforeBus n s).nvram = s.nvram := by rw [beforeBus_frame]
@[simp] theorem beforeBus_txlen (n : Nat) (s : State) : (beforeBus n s).txlen = s.txlen := by rw [beforeBus_frame]
@[simp] theorem beforeBus_acc (n : Nat) (s : State) : (beforeBus n s).acc = s.acc := by rw [beforeBus_frame]
@[simp] theorem beforeBus_rom (n : Nat) (s : State) : (beforeBus n s).rom = s.rom := by rw [beforeBus_frame]
@[simp] theorem beforeBus_cfg (n : Nat) (s : State) : (beforeBus n s).cfg = s.cfg := by rw [beforeBus_frame]
@[simp] theorem beforeBus_answers (n : Nat) (s : State) : (beforeBus n s).answers = s.answers := by
  rw [beforeBus_frame]
@[simp] theorem beforeBus_mem (n : Nat) (s : State) :
    (beforeBus n s).mem = storeAll s.trapCheck.mem s.answers.cpu.stores := rfl

/-! ## CPU memory -/

theorem storeAll_append (m : Memory) (ss ss' : List (Addr × Byte)) :
    storeAll m (ss ++ ss') = storeAll (storeAll m ss) ss' := by
  simp only [storeAll_eq_foldl, List.foldl_append]

/-- The trap at an entry makes the native routine's stores or none. -/
theorem trap_mem (s : State) (e : TrapEntry) :
    ∃ ss, List.Sublist ss s.answers.native.stores ∧ (s.trap e).mem = storeAll s.mem ss := by
  unfold State.trap
  split
  · exact ⟨_, List.Sublist.refl _, rfl⟩
  · exact ⟨[], List.nil_sublist _, rfl⟩

theorem trapCheck_mem (s : State) :
    ∃ ss, List.Sublist ss s.answers.native.stores ∧ s.trapCheck.mem = storeAll s.mem ss := by
  rw [trapCheck_eq_trap]
  split <;> exact trap_mem s _

theorem assertIrq_mem (s : State) :
    ∃ ss, List.Sublist ss s.answers.irq.stores ∧ s.assertIrq.mem = storeAll s.mem ss := by
  unfold State.assertIrq
  split
  · exact ⟨[], List.nil_sublist _, rfl⟩
  · exact ⟨_, List.Sublist.refl _, rfl⟩

/-- The tail makes the interrupt entry's stores or none. -/
theorem iterTail_mem (frame : Bool) (s : State) :
    ∃ ss, List.Sublist ss s.answers.irq.stores ∧ (iterTail frame s).mem = storeAll s.mem ss := by
  unfold iterTail
  split
  · simp only
    split
    · exact assertIrq_mem ((s.emit .refresh).emit (.delay s.cfg.pacingDelay))
    · exact ⟨[], List.nil_sublist _, rfl⟩
  · exact ⟨[], List.nil_sublist _, rfl⟩

/-! ## Invariants -/

/-- What every bus operation of a list keeps, the list keeps. -/
theorem runBus_keeps {P : State → Prop} {os : List BusOp} {s t : State} (h : runBus os s = .next t)
    (hop : ∀ o ∈ os, ∀ u v, busOp o u = .next v → P u → P v) (hs : P s) : P t := by
  induction os generalizing s with
  | nil => cases h; exact hs
  | cons o os ih =>
    obtain ⟨hhead, htail⟩ := List.forall_mem_cons.mp hop
    obtain ⟨u, hu, ht⟩ := andThen_eq_next.mp h
    exact ih ht htail (hhead s u hu hs)

/-- What holds before the bus operations and is kept by each of them, by a cycle and by the tail, holds after the
iteration. -/
theorem execIter_keeps {P : State → Prop} {n : Byte} {s t : State} (h : execIter n s = .next t)
    (hstart : P (beforeBus n.toNat s)) (hop : ∀ o ∈ s.answers.bus, ∀ u v, busOp o u = .next v → P u → P v)
    (hcycle : ∀ u, P u → P u.cycle) (htail : ∀ frame u, P u → P (iterTail frame u)) : P t := by
  obtain ⟨-, u, hu, rfl⟩ := execIter_next h
  rw [cpuStep_eq_runBus] at hu
  exact htail _ _ (Function.Iterate.rec P (runBus_keeps hu hop hstart) hcycle _)

end Sys2Proof.Proofs
end

section
/-! What a step keeps (the invariants of 10_state.md R32 to R36, 44_rtc_calendar.md R241, 43_rtc_registers.md R210 and
R213). An invariant of an iteration is shown for its parts. Of the other operations, those of the Transactor and of
the register boundary leave everything outside the RTC alone, and the five that do not are taken one by one. -/

namespace Sys2Proof.Proofs

open Sys2Proof.Machine Sys2Proof.Slice0

/-! ## The Transactor and the register boundary -/

/-- The accumulator, the clocks, CPU memory, the ROM image and the parameters are as before. -/
def RestKept (s t : State) : Prop :=
  t.acc = s.acc ∧ t.mclk = s.mclk ∧ t.halted = s.halted ∧ t.mem = s.mem ∧ t.rom = s.rom ∧ t.cfg = s.cfg

/-- The operations that reach beyond the Transactor and the register boundary. -/
def reachesBeyondRegisters : Instr → Bool
  | .step _ | .iter _ | .rst | .por | .trapLoad | .trapSave => true
  | _ => false

/-- What a store keeps, the write that performs it keeps, where drawing a byte and ending the transaction keep it. -/
theorem finishWrite_keeps {α : Type} {f : State → α} {store : Byte → State → State}
    (hend : ∀ u : State, f u.endTxn = f u) (hdata : ∀ u : State, f u.writeData.2 = f u)
    (hstore : ∀ d u, f (store d u) = f u) (s : State) :
    f (s.finishWrite store) = f s := by
  rw [State.finishWrite, hend, hstore, hdata]

theorem finishWrite_nvram {store : Byte → State → State} (h : ∀ d u, (store d u).nvram = u.nvram) (s : State) :
    (s.finishWrite store).nvram = s.nvram :=
  finishWrite_keeps State.endTxn_nvram State.writeData_nvram h s

theorem finishWrite_h24 {store : Byte → State → State} (h : ∀ d u, (store d u).h24 = u.h24) (s : State) :
    (s.finishWrite store).h24 = s.h24 :=
  finishWrite_keeps State.endTxn_h24 State.writeData_h24 h s

theorem finishWrite_cal {store : Byte → State → State} (h : ∀ d u, (store d u).cal = u.cal) (s : State) :
    (s.finishWrite store).cal = s.cal :=
  finishWrite_keeps State.endTxn_cal State.writeData_cal h s

theorem writeHour_nvram (d : Byte) (s : State) : (writeHour d s).nvram = s.nvram := by
  rcases writeHour_cases d s with h | h <;> rw [h] <;> rfl

theorem writeHour_restKept (d : Byte) (s : State) : RestKept s (writeHour d s) := by
  rcases writeHour_cases d s with h | h <;> rw [h] <;> exact ⟨rfl, rfl, rfl, rfl, rfl, rfl⟩

theorem finishWrite_restKept {store : Byte → State → State} (h : ∀ d u, RestKept u (store d u)) (s : State) :
    RestKept s (s.finishWrite store) := by
  have hstore := h s.writeData.1 s.writeData.2
  simp only [RestKept, State.writeData_acc, State.writeData_mclk, State.writeData_halted, State.writeData_mem,
    State.writeData_rom, State.writeData_cfg] at hstore
  exact hstore

theorem busOp_restKept {o : BusOp} {s t : State} (h : busOp o s = .next t) : RestKept s t :=
  ⟨busOp_acc h, busOp_mclk h, busOp_halted h, busOp_mem h, busOp_rom h, busOp_cfg h⟩

theorem exec_restKept {i : Instr} (hi : reachesBeyondRegisters i = false) {s t : State} (h : exec i s = .next t) :
    RestKept s t := by
  cases i with
  | step | iter | rst | por | trapLoad | trapSave => cases hi
  | din b => exact busOp_restKept (o := .din b) h
  | rd => exact busOp_restKept (o := .rd) h
  | wr => exact busOp_restKept (o := .wr) h
  | wrHour => cases h; exact finishWrite_restKept writeHour_restKept s
  | wrSec | wrMin | wrWkday | wrDay | wrMonth | wrYear | wrLow | wrNv | wrHigh =>
    cases h; exact finishWrite_restKept (fun _ _ => ⟨rfl, rfl, rfl, rfl, rfl, rfl⟩) s
  | _ => cases h; exact ⟨rfl, rfl, rfl, rfl, rfl, rfl⟩

/-- NVRAM is canonical and inside its 64 bytes, and the buffer within 16 bytes. -/
abbrev RegistersOk (s : State) : Prop := (s.nvram.wf = true ∧ s.nvram.below nvSize = true) ∧ s.txlen ≤ txCap

theorem finishWrite_registersOk {store : Byte → State → State} (h : ∀ d u, (store d u).nvram = u.nvram) {s : State}
    (hs : RegistersOk s) : RegistersOk (s.finishWrite store) := by
  rw [RegistersOk, finishWrite_nvram h]
  exact ⟨hs.1, Nat.zero_le _⟩

theorem exec_registersOk {i : Instr} (hi : reachesBeyondRegisters i = false) {s t : State} (h : exec i s = .next t)
    (hs : RegistersOk s) : RegistersOk t := by
  cases i with
  | step | iter | rst | por | trapLoad | trapSave => cases hi
  | din b => exact busOp_ok (o := .din b) h hs
  | rd => exact busOp_ok (o := .rd) h hs
  | wr => exact busOp_ok (o := .wr) h hs
  | wrNv k =>
    cases h
    obtain ⟨⟨hwf, hbelow⟩, -⟩ := hs
    have hnv : (s.finishWrite (writeNv k.toNat)).nvram = s.nvram.write k.toNat s.writeData.1 :=
      congrArg (Memory.write · k.toNat s.writeData.1) (State.writeData_nvram s)
    rw [RegistersOk, hnv]
    exact ⟨⟨Memory.wf_write hwf _ _, Memory.below_write hbelow k.isLt _⟩, Nat.zero_le _⟩
  | wrHour => cases h; exact finishWrite_registersOk writeHour_nvram hs
  | wrSec | wrMin | wrWkday | wrDay | wrMonth | wrYear | wrLow | wrHigh =>
    cases h; exact finishWrite_registersOk (fun _ _ => rfl) hs
  | idle | flush => cases h; exact hs
  | _ => cases h; exact ⟨hs.1, Nat.zero_le _⟩

/-! ## The structural invariant -/

/-- CPU memory is canonical and inside its 16-bit space. -/
def CpuMemOk (m : Memory) : Prop := m.wf = true ∧ m.below 65536 = true

theorem cpuMemOk_storeAll {m : Memory} (h : CpuMemOk m) (ss : List (Addr × Byte)) : CpuMemOk (storeAll m ss) :=
  ⟨wf_storeAll h.1 ss, below_storeAll h.2 ss⟩

theorem inv_iff (s : State) : s.Inv ↔ RegistersOk s ∧ CpuMemOk s.mem ∧ s.rom.wf = true := by
  simp only [CpuMemOk, RegistersOk, State.Inv, State.MemoriesOk, State.BufferOk]; tauto

theorem trap_inv {s : State} (e : TrapEntry) (h : s.Inv) : (s.trap e).Inv := by
  rw [inv_iff] at h ⊢
  obtain ⟨hreg, hmem, hrom⟩ := h
  rw [RegistersOk, State.trap_nvram, State.trap_txlen, State.trap_rom]
  obtain ⟨ss, -, hm⟩ := trap_mem s e
  exact ⟨hreg, hm ▸ cpuMemOk_storeAll hmem ss, hrom⟩

theorem execIter_inv {n : Byte} {s t : State} (h : execIter n s = .next t) (hs : s.Inv) : t.Inv := by
  rw [inv_iff] at hs ⊢
  obtain ⟨hreg, hmem, hrom⟩ := hs
  refine execIter_keeps (P := fun u => RegistersOk u ∧ CpuMemOk u.mem ∧ u.rom.wf = true) h ⟨?_, ?_, ?_⟩ ?_ ?_ ?_
  · simpa [RegistersOk] using hreg
  · obtain ⟨ss, -, hm⟩ := trapCheck_mem s
    rw [beforeBus_mem, hm]
    exact cpuMemOk_storeAll (cpuMemOk_storeAll hmem ss) _
  · simpa using hrom
  · rintro o - u v huv ⟨hreg, hrest⟩
    rw [busOp_mem huv, busOp_rom huv]
    exact ⟨busOp_ok huv hreg, hrest⟩
  · intro u hu
    simpa [RegistersOk] using hu
  · rintro frame u ⟨hreg, hmem, hrom⟩
    obtain ⟨ss, -, hm⟩ := iterTail_mem frame u
    exact ⟨by simpa [RegistersOk] using hreg, hm ▸ cpuMemOk_storeAll hmem ss, by simpa using hrom⟩

/-- `POR` loads NVRAM anew: 64 bytes from offset 0 on. -/
theorem initialNvram_ok (s : State) :
    (Memory.ofBytes s.initialNvram.toList).wf = true ∧ (Memory.ofBytes s.initialNvram.toList).below nvSize = true := by
  have h := Memory.below_ofBytes s.initialNvram.toList
  rw [Vector.length_toList] at h
  exact ⟨Memory.wf_ofBytes _, h⟩

theorem exec_inv {i : Instr} {s t : State} (h : exec i s = .next t) (hs : s.Inv) : t.Inv := by
  cases i with
  | iter n => exact execIter_inv h hs
  | trapLoad | trapSave => cases h; exact trap_inv _ hs
  | step n =>
    cases h
    rw [inv_iff] at hs ⊢
    simpa [RegistersOk] using hs
  | rst =>
    cases h
    rw [inv_iff] at hs ⊢
    obtain ⟨⟨hnv, -⟩, hmem, hrom⟩ := hs
    exact ⟨⟨hnv, Nat.zero_le _⟩, cpuMemOk_storeAll hmem _, hrom⟩
  | por =>
    cases h
    rw [inv_iff] at hs ⊢
    obtain ⟨-, hmem, hrom⟩ := hs
    exact ⟨⟨initialNvram_ok s, Nat.zero_le _⟩, cpuMemOk_storeAll hmem _, hrom⟩
  | _ =>
    rw [inv_iff] at hs ⊢
    obtain ⟨-, -, -, hm, hr, -⟩ := exec_restKept rfl h
    rw [hm, hr]
    exact ⟨exec_registersOk rfl h hs.1, hs.2⟩

/-- Settles O55: taking the line off the trace keeps the invariant, its ROM image's canonical form included, and so does
the operation. -/
theorem stepKeepsInv : Obligations.StepKeepsInv := by
  intro s t hs h
  rcases step_next h with ⟨-, rfl⟩ | ⟨l, rest, i, -, -, hexec⟩
  · exact hs
  · refine exec_inv hexec ?_
    obtain ⟨⟨hnwf, hnbelow, hmwf, hmbelow, hrom⟩, hbuf⟩ := hs
    exact ⟨⟨hnwf, hnbelow, hmwf, hmbelow, wf_romAfter hrom _⟩, hbuf⟩

/-! ## The accumulator -/

/-- A `STEP` of at most one second keeps the accumulator below one second. -/
theorem stepRtc_acc_lt {s : State} {n : Nat} (hacc : s.acc < s.cfg.cps) (hn : n ≤ s.cfg.cps) :
    (s.stepRtc n).acc < s.cfg.cps := by
  cases hrun : s.run with
  | false => rwa [stepRtc_of_stopped hrun]
  | true =>
    rw [stepRtc_of_le hrun hacc hn]
    exact Nat.mod_lt _ (Nat.zero_lt_of_lt hacc)

theorem cycle_acc (s : State) : s.cycle.acc = (s.stepRtc 1).acc := by rw [cycle_eq]

theorem exec_accOk {i : Instr} {s t : State} (h : exec i s = .next t) (hcps : 255 ≤ s.cfg.cps) (hacc : s.AccOk) :
    t.cfg = s.cfg ∧ t.acc < s.cfg.cps := by
  cases i with
  | iter n =>
    refine execIter_keeps (P := fun u => u.cfg = s.cfg ∧ u.acc < s.cfg.cps) h ?_ ?_ ?_ ?_
    · simpa using hacc
    · rintro o - u v huv hu
      rwa [busOp_cfg huv, busOp_acc huv]
    · rintro u ⟨hcfg, hu⟩
      rw [← hcfg] at hu hcps
      rw [State.cycle_cfg, cycle_acc, ← hcfg]
      exact ⟨rfl, stepRtc_acc_lt hu (by omega)⟩
    · intro frame u hu
      rwa [iterTail_cfg, iterTail_acc]
  | step n =>
    cases h
    have hn := n.isLt
    exact ⟨State.stepRtc_cfg s _, stepRtc_acc_lt hacc (by omega)⟩
  | trapLoad | trapSave =>
    cases h
    rw [State.trap_cfg, State.trap_acc]
    exact ⟨rfl, hacc⟩
  | rst => cases h; exact ⟨rfl, hacc⟩
  | por => cases h; exact ⟨rfl, Nat.zero_lt_of_lt hacc⟩
  | _ =>
    obtain ⟨ha, -, -, -, -, hc⟩ := exec_restKept rfl h
    rw [ha, hc]
    exact ⟨rfl, hacc⟩

/-- Settles O56: only `STEP`, the cycles of an iteration and `POR` touch the accumulator. -/
theorem stepKeepsAccBelowCps : Obligations.StepKeepsAccBelowCps := by
  intro s t hcps hacc h
  rcases step_next h with ⟨-, rfl⟩ | ⟨l, rest, i, -, -, hexec⟩
  · exact ⟨rfl, hacc⟩
  · obtain ⟨hcfg, hlt⟩ := exec_accOk hexec hcps hacc
    rw [hcfg]
    exact ⟨rfl, hlt⟩

/-! ## The calendar's validity -/

theorem stepRtc_cal_valid {s : State} (n : Nat) (h : s.cal.Valid) : (s.stepRtc n).cal.Valid := by
  unfold State.stepRtc
  split
  · split
    · exact tickKeepsCalValid s.cal h
    · exact h
  · exact h

theorem cycle_cal (s : State) : s.cycle.cal = (s.stepRtc 1).cal := by rw [cycle_eq]

/-- A bus operation other than a write leaves the calendar, the mode and NVRAM alone. -/
theorem busOp_of_ne_wr {o : BusOp} (ho : o ≠ .wr) {s t : State} (h : busOp o s = .next t) :
    t.cal = s.cal ∧ t.h24 = s.h24 ∧ t.nvram = s.nvram := by
  cases o with
  | wr => exact absurd rfl ho
  | din b => cases h; exact ⟨State.push_cal s b, State.push_h24 s b, State.push_nvram s b⟩
  | rd => rcases busRead_next h with ⟨-, rfl⟩ | ⟨-, -, rfl⟩ <;> exact ⟨rfl, rfl, rfl⟩

/-- Settles O57: the operations left either keep the calendar, tick it, or load a valid one. -/
theorem onlyWritesBreakCalValid : Obligations.OnlyWritesBreakCalValid := by
  intro i s t hcal h hi hbus
  cases i with
  | wr | wrSec | wrMin | wrHour | wrWkday | wrDay | wrMonth | wrYear => simp at hi
  | iter n =>
    have hno := hbus ⟨n, rfl⟩
    refine execIter_keeps (P := fun u => u.cal.Valid) h (by rwa [beforeBus_cal]) (fun o ho u v huv hu => ?_)
      (fun u hu => ?_) fun frame u hu => by rwa [iterTail_cal]
    · obtain ⟨hc, -, -⟩ := busOp_of_ne_wr (fun hwr => hno (hwr ▸ ho)) huv
      rwa [hc]
    · rw [cycle_cal]; exact stepRtc_cal_valid 1 hu
  | step n => cases h; exact stepRtc_cal_valid _ hcal
  | por => cases h; exact s.initialCalendar.property
  | din b => cases h; rwa [State.push_cal]
  | rd =>
    obtain ⟨hc, -, -⟩ := busOp_of_ne_wr (o := .rd) nofun h
    rwa [hc]
  | trapLoad | trapSave => cases h; rwa [State.trap_cal]
  | wrLow | wrNv | wrHigh => cases h; exact (congrArg Calendar.Valid (finishWrite_cal (fun _ _ => rfl) s)).mpr hcal
  | _ => cases h; exact hcal

/-! ## The hour mode and NVRAM -/

/-- Without a write on the bus an iteration keeps the mode and NVRAM. -/
theorem execIter_mode_nvram {n : Byte} {s t : State} (hbus : BusOp.wr ∉ s.answers.bus) (h : execIter n s = .next t) :
    t.h24 = s.h24 ∧ t.nvram = s.nvram := by
  refine execIter_keeps (P := fun u => u.h24 = s.h24 ∧ u.nvram = s.nvram) h (by simp) (fun o ho u v huv hu => ?_)
    (fun u hu => by simpa using hu) fun frame u hu => by simpa using hu
  obtain ⟨-, hm, hn⟩ := busOp_of_ne_wr (fun hwr => hbus (hwr ▸ ho)) huv
  rwa [hm, hn]

/-- Settles O58: of the operations named none needs a proof, and the others keep what they are said to keep. -/
theorem modeAndNvramChangeOnlyByWrite : Obligations.ModeAndNvramChangeOnlyByWrite := by
  intro i s t h
  have hkept {p q : Prop} (hk : t.h24 = s.h24 ∧ t.nvram = s.nvram) : (t.h24 ≠ s.h24 → p) ∧ (t.nvram ≠ s.nvram → q) :=
    ⟨fun hne => absurd hk.1 hne, fun hne => absurd hk.2 hne⟩
  cases i with
  | wr => exact ⟨fun _ => .inl rfl, fun _ => .inl rfl⟩
  | por => exact ⟨fun _ => .inr (.inr (.inl rfl)), fun _ => .inr (.inr (.inl rfl))⟩
  | iter n =>
    by_cases hbus : BusOp.wr ∈ s.answers.bus
    · exact ⟨fun _ => .inr (.inr (.inr ⟨hbus, n, rfl⟩)), fun _ => .inr (.inr (.inr ⟨hbus, n, rfl⟩))⟩
    · exact hkept (execIter_mode_nvram hbus h)
  | wrHour =>
    cases h
    exact ⟨fun _ => .inr (.inl rfl), fun hne => absurd (finishWrite_nvram writeHour_nvram s) hne⟩
  | wrNv k =>
    cases h
    exact ⟨fun hne => absurd (finishWrite_h24 (fun _ _ => rfl) s) hne, fun _ => .inr (.inl ⟨k, rfl⟩)⟩
  | din b => exact hkept (busOp_of_ne_wr (o := .din b) nofun h).2
  | rd => exact hkept (busOp_of_ne_wr (o := .rd) nofun h).2
  | step n => cases h; exact hkept ⟨State.stepRtc_h24 s _, State.stepRtc_nvram s _⟩
  | trapLoad | trapSave => cases h; exact hkept ⟨State.trap_h24 s _, State.trap_nvram s _⟩
  | wrSec | wrMin | wrWkday | wrDay | wrMonth | wrYear | wrLow | wrHigh =>
    cases h; exact hkept ⟨finishWrite_h24 (fun _ _ => rfl) s, finishWrite_nvram (fun _ _ => rfl) s⟩
  | _ => cases h; exact hkept ⟨rfl, rfl⟩

/-! ## CPU memory -/

/-- An iteration makes the native routine's stores or none, the instruction's, and the interrupt entry's or none. -/
theorem execIter_mem {n : Byte} {s t : State} (h : execIter n s = .next t) :
    ∃ ss, List.Sublist ss (s.answers.native.stores ++ s.answers.cpu.stores ++ s.answers.irq.stores) ∧
      t.mem = storeAll s.mem ss := by
  obtain ⟨-, u, hu, ht⟩ := execIter_next h
  rw [cpuStep_eq_runBus] at hu
  have hmem : (State.cycle^[n.toNat] u).mem = u.mem := by rw [cycle_iterate, stepRtc_iterate]
  have hans : (State.cycle^[n.toNat] u).answers = u.answers := by rw [cycle_iterate, stepRtc_iterate]
  obtain ⟨ns, hns, hnative⟩ := trapCheck_mem s
  obtain ⟨is, his, hirq⟩ := iterTail_mem ((u.answers.frames.take n.toNat).any id) (State.cycle^[n.toNat] u)
  rw [hans, runBus_answers hu, beforeBus_answers] at his
  rw [← ht, hmem, runBus_mem hu, beforeBus_mem, hnative, ← storeAll_append s.mem, ← storeAll_append] at hirq
  exact ⟨_, (hns.append (List.Sublist.refl _)).append his, hirq⟩

/-- An operation changes CPU memory by stores of the collaborators it calls. -/
theorem exec_mem {i : Instr} {s t : State} (h : exec i s = .next t) :
    ∃ ss, List.Sublist ss (storesOf s.answers i) ∧ t.mem = storeAll s.mem ss := by
  cases i with
  | iter n => exact execIter_mem h
  | trapLoad | trapSave => cases h; exact trap_mem s _
  | rst | por => cases h; exact ⟨_, List.Sublist.refl _, rfl⟩
  | step n => cases h; exact ⟨[], List.nil_sublist _, State.stepRtc_mem s _⟩
  | _ =>
    obtain ⟨-, -, -, hm, -, -⟩ := exec_restKept rfl h
    exact ⟨[], List.nil_sublist _, hm⟩

/-- Settles O59: memory changes by stores among those named, which leave every other byte alone. -/
theorem blockWritesNoCpuMemory : Obligations.BlockWritesNoCpuMemory := by
  intro i s t h
  obtain ⟨ss, hss, hm⟩ := exec_mem h
  refine ⟨fun a ha => ?_, fun hnil => ?_⟩
  · rw [hm]; exact read_storeAll_ne _ fun st hst => ha st (hss.subset hst)
  · rw [hnil] at hss
    rw [hm, List.eq_nil_of_sublist_nil hss]; rfl

/-! ## `halted` and the machine clock -/

/-- Settles O60: an iteration is refused, and of the rest only `POR` clears `halted` and only the resets set the
clock. -/
theorem haltedStaysHalted : Obligations.HaltedStaysHalted := by
  intro i s t hhalt h
  cases i with
  | iter n =>
    obtain ⟨hrun, -⟩ := execIter_next h
    rw [hhalt] at hrun; cases hrun
  | por => exact ⟨fun hne => absurd rfl hne, fun hne => absurd rfl hne⟩
  | rst => cases h; exact ⟨fun _ => hhalt, fun _ hne => absurd rfl hne⟩
  | step n => cases h; simpa using hhalt
  | trapLoad | trapSave => cases h; simpa using hhalt
  | _ =>
    obtain ⟨-, hclk, hh, -, -, -⟩ := exec_restKept rfl h
    exact ⟨fun _ => hh.trans hhalt, fun _ _ => hclk⟩

/-! ## Steps -/

theorem step_of_op {s : State} {l : Line} {rest : List Line} {i : Instr} (htrace : s.trace = l :: rest)
    (h : decode s.cfg (.opw l.word) = .op i) : step s = exec i (s.latch l rest) := by
  rw [step, State.fetch, htrace]
  simp only [h]

theorem step_of_reserved {s : State} {l : Line} {rest : List Line} (htrace : s.trace = l :: rest)
    (h : decode s.cfg (.opw l.word) = .reserved l.word) : step s = .refused (.reservedOpWord l.word) := by
  rw [step, State.fetch, htrace]
  simp only [h]

theorem step_of_empty {s : State} (htrace : s.trace = []) : step s = .next { s with out := [] } := by
  rw [step, State.fetch, htrace]
  rfl

/-- Settles O53, by the three forms of a fetch. -/
theorem stepRunsDecoded : Obligations.StepRunsDecoded := fun _ _ _ =>
  ⟨fun htrace _ h => step_of_op htrace h, step_of_reserved, step_of_empty⟩

/-- Where missing bytes are drawn, every operation completes but an iteration after the loop has terminated. -/
theorem exec_of_draw {s : State} (hdraw : s.cfg.txnUnderflow = .draw) (i : Instr) :
    (∃ t, exec i s = .next t) ∨ (s.halted = true ∧ ∃ n, i = .iter n) := by
  have hbus : ∀ o, ∃ t, busOp o s = .next t := fun o => by
    obtain ⟨t, ht⟩ := runBus_draw (os := [o]) hdraw
    obtain ⟨u, hu, -⟩ := andThen_eq_next.mp ht
    exact ⟨u, hu⟩
  cases i with
  | iter n =>
    cases hrun : s.halted with
    | true => exact .inr ⟨rfl, n, rfl⟩
    | false =>
      obtain ⟨u, hu⟩ := runBus_draw (os := s.answers.bus) (s := beforeBus n.toNat s) (by rwa [beforeBus_cfg])
      rw [← cpuStep_eq_runBus] at hu
      exact .inl ⟨_, execIter_of_cpuStep hrun hu⟩
  | rd => exact .inl (hbus .rd)
  | wr => exact .inl (hbus .wr)
  | _ => exact .inl ⟨_, rfl⟩

/-- Settles O54: a word is reserved or an operation, and every operation but that iteration completes. -/
theorem onlyReservedOrHaltedRefuse : Obligations.OnlyReservedOrHaltedRefuse := by
  intro s hdraw
  cases htrace : s.trace with
  | nil => exact .inl ⟨_, step_of_empty htrace⟩
  | cons l rest =>
    rcases decodeOpw_cases l.word with ⟨i, hi⟩ | hres
    · rcases exec_of_draw (s := s.latch l rest) hdraw i with ⟨t, ht⟩ | ⟨hhalt, n, rfl⟩
      · exact .inl ⟨t, (step_of_op htrace hi).trans ht⟩
      · exact .inr ⟨l, rest, rfl, .inr ⟨hhalt, n, hi⟩⟩
    · exact .inr ⟨l, rest, rfl, .inl hres⟩

end Sys2Proof.Proofs
end

section
/-! The trap's firing and the whole of an iteration (41_hypercall_trap.md R150 to R157; 40_scheduler.md R120 to R137).
The RTC's part of the state and the rest go separate ways in an iteration: the bus operations and the cycles act on
the RTC's part whatever the rest is, so it ends as those operations leave it on the state before the iteration; the
rest is what the trap check, the instruction and the tail make of it. -/

namespace Sys2Proof.Proofs

open Sys2Proof.Machine Sys2Proof.Slice0

/-! ## The trap fires -/

theorem applyCpu_eq_afterEffect (s : State) (e : CpuEffect) : s.applyCpu e = afterEffect e s := by
  rw [State.applyCpu, afterEffect, storeAll_eq_foldl]

theorem afterReturnAddress_eq (lo hi : Byte) :
    afterReturnAddress lo hi = BitVec.ofNat 16 (hi.toNat * 256 + lo.toNat + 1) := by
  rw [afterReturnAddress, ← Nat.shiftLeft_add_eq_or_of_lt lo.isLt, Nat.shiftLeft_eq]

theorem synthReturn_eq_returned (s : State) : s.synthReturn = returned s := by
  have hsp : BitVec.ofNat 8 ((s.cpu.sp.toNat + 2) % 256) = BitVec.ofNat 8 (s.cpu.sp.toNat + 2) :=
    BitVec.eq_of_toNat_eq (by rw [BitVec.toNat_ofNat, BitVec.toNat_ofNat]; exact Nat.mod_mod _ 256)
  rw [State.synthReturn, returned, afterReturnAddress_eq, hsp]
  rfl

/-- Taking the trap is the native routine's call and effect, and a subroutine return. -/
theorem takeTrap_eq (s : State) (e : TrapEntry) :
    s.takeTrap e = returned (afterEffect s.answers.native { s with out := .native e :: s.out }) := by
  rw [State.takeTrap, synthReturn_eq_returned, State.callNative, applyCpu_eq_afterEffect]
  rfl

theorem trap_of_trapConditions {s : State} {e : TrapEntry} (h : trapConditions s (s.vector e)) :
    s.trap e = s.takeTrap e :=
  if_pos ((trapGate_iff s e).mpr h)

theorem trap_fires {s : State} {e : TrapEntry} (h : trapConditions s (s.vector e)) :
    s.trap e = returned (afterEffect s.answers.native { s with out := .native e :: s.out }) := by
  rw [trap_of_trapConditions h, takeTrap_eq]

/-- Settles O43: both entries are taken, and a routine without an effect leaves only the return. -/
theorem trapFires : Obligations.TrapFires := by
  intro s
  refine ⟨fun h => congrArg Host.Outcome.next (trap_fires (e := .load) h),
    fun h => congrArg Host.Outcome.next (trap_fires (e := .save) h), fun hnone h => ⟨_, rfl, ?_, ?_⟩⟩
  · rw [trap_fires (e := .load) h, hnone]; rfl
  · rw [trap_fires (e := .load) h, hnone]; rfl

theorem atVector_iff (s : State) (e : TrapEntry) : s.atVector e = true ↔ s.cpu.pc = s.vector e := beq_iff_eq

/-- Settles O44: the two comparisons of the decoder are the two vectors the check looks at. -/
theorem trapCheckIsDecodedEntry : Obligations.TrapCheckIsDecodedEntry := by
  intro s _
  by_cases hload : s.cpu.pc = s.cfg.loadVec
  · have hcheck : s.trapCheck = s.trap .load := by
      rw [trapCheck_eq_trap, if_pos ((atVector_iff s .load).mpr hload)]
    rw [decode, decodePcm, if_pos hload, hcheck]
    refine ⟨fun i h => ?_, nofun⟩
    cases h; rfl
  · have hcheck : s.trapCheck = s.trap .save := by
      rw [trapCheck_eq_trap, if_neg fun h => hload ((atVector_iff s .load).mp h)]
    rw [decode, decodePcm, if_neg hload, hcheck]
    split
    · refine ⟨fun i h => ?_, nofun⟩
      cases h; rfl
    · next hsave => exact ⟨nofun, fun _ => trap_of_not_trapConditions (e := .save) fun h => hsave h.1⟩

/-! ## When an iteration completes -/

/-- Settles O45, by the first test of an iteration. -/
theorem iterRefusedOnceHalted : Obligations.IterRefusedOnceHalted := fun _ _ hhalt => if_pos hhalt

theorem execIter_of_refused {n : Byte} {s : State} {r : Refusal} (hrun : s.halted = false)
    (h : runBus s.answers.bus (beforeBus n.toNat s) = .refused r) : execIter n s = .refused r := by
  rw [← cpuStep_eq_runBus] at h
  rw [execIter, hrun, if_neg Bool.false_ne_true, h]
  rfl

/-- Bus operations that each meet the bytes they need go through. -/
theorem runBus_of_admitted {os : List BusOp} {s : State} (h : admitted s.txlen os = true) :
    ∃ t, runBus os s = .next t := by
  induction os generalizing s with
  | nil => exact ⟨s, rfl⟩
  | cons o os ih =>
    have hnext {u : State} (hu : busOp o s = .next u) (hos : admitted u.txlen os = true) :
        ∃ t, runBus (o :: os) s = .next t := by
      obtain ⟨t, ht⟩ := ih hos
      exact ⟨t, andThen_eq_next.mpr ⟨u, hu, ht⟩⟩
    cases o with
    | din b => exact hnext rfl (by rwa [State.push_txlen])
    | rd =>
      obtain ⟨hlen, hos⟩ : 1 ≤ s.txlen ∧ admitted 0 os = true := by simpa [admitted] using h
      exact hnext (busRead_of_pointer hlen) hos
    | wr =>
      obtain ⟨hlen, hos⟩ : 2 ≤ s.txlen ∧ admitted 0 os = true := by simpa [admitted] using h
      exact hnext (busWrite_of_data hlen) hos

theorem busRead_of_refuse {s : State} (hcfg : s.cfg.txnUnderflow = .refuse) (h : ¬ 1 ≤ s.txlen) :
    s.busRead = .refused .readWithoutPointer := by
  rw [State.busRead, if_neg h, hcfg]

theorem busWrite_of_refuse {s : State} (hcfg : s.cfg.txnUnderflow = .refuse) (h : ¬ 2 ≤ s.txlen) :
    s.busWrite = .refused .writeWithoutData := by
  rw [State.busWrite, if_neg h, hcfg]

/-- Where missing bytes are refused, a bus operation that lacks one stops the operations with its own refusal. -/
theorem runBus_of_not_admitted {os : List BusOp} {s : State} (hcfg : s.cfg.txnUnderflow = .refuse)
    (h : admitted s.txlen os = false) :
    runBus os s = .refused .readWithoutPointer ∨ runBus os s = .refused .writeWithoutData := by
  induction os generalizing s with
  | nil => cases h
  | cons o os ih =>
    have hnext {u : State} (hu : busOp o s = .next u) (hos : admitted u.txlen os = false) :
        runBus (o :: os) s = .refused .readWithoutPointer ∨ runBus (o :: os) s = .refused .writeWithoutData := by
      rw [runBus, hu]
      exact ih (by rwa [busOp_cfg hu]) hos
    cases o with
    | din b => exact hnext rfl (by rwa [State.push_txlen])
    | rd =>
      by_cases hlen : 1 ≤ s.txlen
      · exact hnext (busRead_of_pointer hlen) (by simpa [admitted, hlen] using h)
      · left; rw [runBus, busOp, busRead_of_refuse hcfg hlen]; rfl
    | wr =>
      by_cases hlen : 2 ≤ s.txlen
      · exact hnext (busWrite_of_data hlen) (by simpa [admitted, hlen] using h)
      · right; rw [runBus, busOp, busWrite_of_refuse hcfg hlen]; rfl

/-- What no part of an iteration touches after the machine clock has taken its cycles. -/
theorem execIter_frame {n : Byte} {s t : State} (h : execIter n s = .next t) :
    t.mclk = s.mclk + n.toNat ∧ t.cfg = s.cfg ∧ t.rom = s.rom ∧ t.trace = s.trace ∧ t.answers = s.answers := by
  refine execIter_keeps (P := fun u => u.mclk = s.mclk + n.toNat ∧ u.cfg = s.cfg ∧ u.rom = s.rom ∧ u.trace = s.trace ∧
    u.answers = s.answers) h ?_ ?_ (fun u hu => by simpa using hu) fun frame u hu => by simpa using hu
  · rw [beforeBus_frame]; exact ⟨rfl, rfl, rfl, rfl, rfl⟩
  · rintro o - u v huv hu
    rwa [busOp_mclk huv, busOp_cfg huv, busOp_rom huv, busOp_trace huv, busOp_answers huv]

/-- Settles O46: an iteration completes where its bus operations do, and is refused with the first that is. -/
theorem iterCompletes : Obligations.IterCompletes := by
  intro n s hrun
  refine ⟨fun hok => ?_, fun hcfg hno => ?_⟩
  · have hbus : ∃ u, runBus s.answers.bus (beforeBus n.toNat s) = .next u := by
      rcases hok with hdraw | hadm
      · exact runBus_draw (by rwa [beforeBus_cfg])
      · exact runBus_of_admitted (by rwa [beforeBus_txlen])
    obtain ⟨u, hu⟩ := hbus
    have hiter := execIter_of_cpuStep hrun ((cpuStep_eq_runBus _ _).trans hu)
    exact ⟨_, hiter, execIter_frame hiter⟩
  · exact (runBus_of_not_admitted (s := beforeBus n.toNat s) (by rwa [beforeBus_cfg]) (by rwa [beforeBus_txlen])).imp
      (execIter_of_refused hrun) (execIter_of_refused hrun)

/-! ## The RTC's part of an iteration -/

theorem exec_busInstr (o : BusOp) (s : State) : exec (busInstr o) s = busOp o s := by
  cases o with
  | din b => rfl
  | rd => rfl
  | wr => rfl

/-- The bus operations of an instruction are the operations `DIN`, `RD` and `WR`. -/
theorem execAll_bus (os : List BusOp) (s : State) : execAll (os.map busInstr) s = runBus os s := by
  induction os generalizing s with
  | nil => rfl
  | cons o os ih =>
    rw [List.map_cons, execAll, exec_busInstr, runBus]
    cases busOp o s with
    | next u => exact ih u
    | fault e => rfl
    | refused r => rfl

theorem execAll_steps (n : Nat) (s : State) :
    execAll (List.replicate n (.step 1)) s = .next ((fun u => State.stepRtc u 1)^[n] s) := by
  induction n generalizing s with
  | zero => rfl
  | succ n ih => exact ih (s.stepRtc 1)

theorem joinRtc_stepRtc (y z : State) (n : Nat) : (joinRtc y z).stepRtc n = joinRtc (y.stepRtc n) z := by
  unfold State.stepRtc
  show (if y.run then (if y.cfg.cps ≤ y.acc + n then _ else _) else _) = _
  split_ifs <;> rfl

theorem joinRtc_stepRtc_iterate (n : Nat) (y z : State) :
    (fun u => State.stepRtc u 1)^[n] (joinRtc y z) = joinRtc ((fun u => State.stepRtc u 1)^[n] y) z := by
  induction n generalizing y with
  | zero => rfl
  | succ n ih => rw [Function.iterate_succ_apply, joinRtc_stepRtc, ih, Function.iterate_succ_apply]

theorem assertIrq_eq_joinRtc (s : State) : s.assertIrq = joinRtc s s.assertIrq := by
  unfold State.assertIrq
  split <;> rfl

theorem iterTail_eq_joinRtc (frame : Bool) (s : State) : iterTail frame s = joinRtc s (iterTail frame s) := by
  unfold iterTail
  split
  · simp only
    split
    · exact assertIrq_eq_joinRtc ((s.emit .refresh).emit (.delay s.cfg.pacingDelay))
    · rfl
  · rfl

/-- Up to its bus operations an iteration leaves the RTC's part alone, and with it every state that has the same one. -/
theorem beforeBus_eq_joinRtc (n : Nat) (s : State) (out : List Event) :
    beforeBus n s = joinRtc { s with out := out } (beforeBus n s) := by
  rw [beforeBus_frame]; rfl

theorem eq_joinRtc_beforeBus (n : Nat) (s : State) : s = joinRtc (beforeBus n s) s := by
  rw [beforeBus_frame]; rfl

/-- The bus operations of an iteration go through where they do on the state before the iteration. -/
theorem cpuStep_of_runBus {n : Nat} {s w : State} (h : runBus s.answers.bus s = .next w) :
    ∃ u, s.trapCheck.cpuStep n = .next u := by
  rw [eq_joinRtc_beforeBus n s] at h
  obtain ⟨u, -, hu, -⟩ := runBus_joinRtc h
  rw [cpuStep_eq_runBus]
  exact ⟨u, hu⟩

/-- After an iteration the RTC's part is that of the bus operations and then the cycles on the state before it. -/
theorem execIter_rtc {n : Byte} {s t : State} (h : execIter n s = .next t) :
    ∃ w, runBus s.answers.bus s = .next w ∧ t = joinRtc ((fun u => State.stepRtc u 1)^[n.toNat] w) t := by
  obtain ⟨-, u, hu, rfl⟩ := execIter_next h
  rw [cpuStep_eq_runBus, beforeBus_eq_joinRtc n.toNat s s.out] at hu
  obtain ⟨w, z, hw, rfl, -⟩ := runBus_joinRtc hu
  refine ⟨w, hw, (iterTail_eq_joinRtc _ _).trans ?_⟩
  rw [cycle_iterate, joinRtc_stepRtc_iterate]
  rfl

/-- Settles O48: the RTC's part after an iteration, field by field. -/
theorem iterBusBeforeCycles : Obligations.IterBusBeforeCycles := by
  intro n s t h
  obtain ⟨w, hw, ht⟩ := execIter_rtc h
  refine ⟨w, _, (execAll_bus _ s).trans hw, execAll_steps n.toNat w, ?_⟩
  have field {α : Type} (f : State → α) := congrArg f ht
  exact ⟨field State.cal, field State.acc, field State.run, field State.h24, field State.vbaten, field State.nvram,
    field State.dirty, field State.buf, field State.txlen, field State.draws⟩

/-! ## The rest of an iteration -/

theorem read_afterEffect_ne {e : CpuEffect} {a : Nat} (h : ∀ st ∈ e.stores, st.1.toNat ≠ a) (s : State) :
    (afterEffect e s).mem.read a = s.mem.read a := by
  rw [← applyCpu_eq_afterEffect]
  exact read_storeAll_ne s.mem h

/-- The trap check stores to no byte, unless it fires and the native routine does. -/
theorem read_trapCheck_ne {s : State} {a : Nat}
    (h : trapConditions s s.cfg.loadVec ∨ trapConditions s s.cfg.saveVec →
      ∀ st ∈ s.answers.native.stores, st.1.toNat ≠ a) :
    s.trapCheck.mem.read a = s.mem.read a := by
  by_cases hfires : trapConditions s s.cfg.loadVec ∨ trapConditions s s.cfg.saveVec
  · obtain ⟨ss, hss, hmem⟩ := trapCheck_mem s
    rw [hmem]
    exact read_storeAll_ne s.mem fun st hst => h hfires st (hss.subset hst)
  · obtain ⟨hload, hsave⟩ := not_or.mp hfires
    obtain ⟨-, -, hnothing⟩ := trapNeedsAllThree s
    rw [hnothing hload hsave]

/-- The external CPU and its memory as `c` has them, after the interrupt entry where the interrupt is asserted. -/
def afterIrq (frame cont : Bool) (irq : CpuEffect) (c : State) : State :=
  if frame = true ∧ cont = true ∧ c.cpu.i = false then afterEffect irq c else c

/-- What the tail does to the external CPU and its memory. -/
theorem iterTail_cpu_mem (frame : Bool) {s c : State} (hcpu : s.cpu = c.cpu) (hmem : s.mem = c.mem) :
    (iterTail frame s).cpu = (afterIrq frame s.answers.cont s.answers.irq c).cpu ∧
    (iterTail frame s).mem = (afterIrq frame s.answers.cont s.answers.irq c).mem := by
  cases frame with
  | false => exact ⟨hcpu, hmem⟩
  | true =>
    cases hc : s.answers.cont with
    | false => simp [iterTail, afterIrq, hc, hcpu, hmem]
    | true =>
      cases hi : c.cpu.i with
      | true => simp [iterTail, State.assertIrq, afterIrq, hc, hcpu, hmem, hi]
      | false => simp [iterTail, State.assertIrq, afterIrq, hc, hcpu, hmem, hi, applyCpu_eq_afterEffect, afterEffect]

/-- What an iteration leaves of the external CPU and its memory. -/
theorem execIter_cpu_mem {n : Byte} {s t : State} (h : execIter n s = .next t) :
    t.cpu = (afterIrq (frameOf n.toNat s.answers.frames) s.answers.cont s.answers.irq
      (afterEffect s.answers.cpu s.trapCheck)).cpu ∧
    t.mem = (afterIrq (frameOf n.toNat s.answers.frames) s.answers.cont s.answers.irq
      (afterEffect s.answers.cpu s.trapCheck)).mem := by
  obtain ⟨-, u, hu, ht⟩ := execIter_next h
  obtain ⟨-, -, -, hans, -, -, -, hcpu, hmem⟩ := cpuStep_next hu
  rw [State.trapCheck_answers] at hans hcpu hmem
  rw [applyCpu_eq_afterEffect] at hcpu hmem
  have hcyclecpu : (State.cycle^[n.toNat] u).cpu = u.cpu := by rw [cycle_iterate, stepRtc_iterate]
  have hcyclemem : (State.cycle^[n.toNat] u).mem = u.mem := by rw [cycle_iterate, stepRtc_iterate]
  have hcycleans : (State.cycle^[n.toNat] u).answers = u.answers := by rw [cycle_iterate, stepRtc_iterate]
  have htail := iterTail_cpu_mem ((u.answers.frames.take n.toNat).any id) (hcyclecpu.trans hcpu) (hcyclemem.trans hmem)
  rw [← ht, hcycleans, hans] at htail
  exact htail

/-- A state with the RTC's part of `u` differs from it only outside that part. -/
theorem eq_of_eq_joinRtc {t u : State} (h : t = joinRtc u t) (hrom : t.rom = u.rom) (hans : t.answers = u.answers)
    (htrace : t.trace = u.trace) :
    t = { u with mclk := t.mclk, halted := t.halted, cpu := t.cpu, mem := t.mem, out := t.out } :=
  h.trans (by rw [joinRtc, hrom, hans, htrace])

/-- Settles O47: the RTC's part is that of O48, the rest that of the trap check, the instruction and the tail. -/
theorem iterFrame : Obligations.IterFrame := by
  intro n s w hrun hw
  rw [execAll_bus] at hw
  obtain ⟨x, hx⟩ := cpuStep_of_runBus (n := n.toNat) hw
  obtain ⟨t, ht⟩ : ∃ t, execIter n s = .next t := ⟨_, execIter_of_cpuStep hrun hx⟩
  obtain ⟨w', hw', hrtc⟩ := execIter_rtc ht
  obtain rfl : w = w' := Host.Outcome.next.inj (hw.symm.trans hw')
  obtain ⟨hmclk, -, hrom, htrace, hans⟩ := execIter_frame ht
  obtain ⟨-, -, -, hhalted⟩ := execIter_out ht
  obtain ⟨hcpu, hmem⟩ := execIter_cpu_mem ht
  refine ⟨t, _, ht, execAll_steps n.toNat w, ?_, fun a hnative hinstr hirq => ?_⟩
  · rw [← runBus_rom hw] at hrom
    rw [← runBus_answers hw] at hans
    rw [← runBus_trace hw] at htrace
    have hu := stepRtc_iterate n.toNat w
    have heq := eq_of_eq_joinRtc hrtc (by rw [hu]; exact hrom) (by rw [hu]; exact hans) (by rw [hu]; exact htrace)
    rw [hmclk, hhalted, hcpu, hmem] at heq
    exact heq
  · rw [hmem, afterIrq]
    split
    · next hasserted =>
      rw [read_afterEffect_ne (hirq hasserted), read_afterEffect_ne hinstr, read_trapCheck_ne hnative]
    · rw [read_afterEffect_ne hinstr, read_trapCheck_ne hnative]

/-! ## What an iteration calls and puts out -/

theorem trap_out_eq (s : State) (e : TrapEntry) :
    (s.trap e).out = (if trapConditions s (s.vector e) then [.native e] else []) ++ s.out := by
  split
  · next h => rw [trap_of_trapConditions h]; rfl
  · next h => rw [trap_of_not_trapConditions h]; rfl

/-- The trap check calls the native routine of the entry that fires. -/
theorem trapCheck_out (s : State) : s.trapCheck.out = nativeCalls s ++ s.out := by
  rw [trapCheck_eq_trap, nativeCalls]
  by_cases hload : trapConditions s s.cfg.loadVec
  · rw [if_pos ((atVector_iff s .load).mpr hload.1), if_pos hload, trap_of_trapConditions (e := .load) hload]
    rfl
  · rw [if_neg hload]
    split
    · next hat =>
      have hsave : ¬ trapConditions s s.cfg.saveVec := fun hsave => hload ⟨(atVector_iff s .load).mp hat, hsave.2⟩
      rw [if_neg hsave, trap_of_not_trapConditions (e := .load) hload]
      rfl
    · exact trap_out_eq s .save

theorem tailEvents_eq (frame cont masked : Bool) (d : Nat) :
    tailEvents frame cont masked d =
      if frame then
        (if cont then (if masked then [.delay d, .refresh] else [.irq, .delay d, .refresh])
         else [.presentationEnd, .refresh])
      else [] :=
  match frame, cont, masked with
  | false, _, _ => rfl
  | true, false, _ => rfl
  | true, true, true => rfl
  | true, true, false => rfl

/-- Settles O49: the bus operations put the same bytes out on the state before the iteration as within it. -/
theorem iterCallsInOrder : Obligations.IterCallsInOrder := by
  intro n s t h
  obtain ⟨u, hu, hout, -⟩ := execIter_out h
  rw [cpuStep_eq_runBus, beforeBus_eq_joinRtc n.toNat s (.cpuStep :: nativeCalls s ++ s.out)] at hu
  obtain ⟨w, z, hw, rfl, hz⟩ := runBus_joinRtc hu
  refine ⟨w, (execAll_bus _ _).trans hw, ?_⟩
  have hwout : (joinRtc w z).out = w.out := hz (congrArg (List.cons Event.cpuStep) (trapCheck_out s))
  rw [hout, tailEvents_eq, hwout, List.append_assoc]
  rfl

/-! ## The counts of the steppers -/

/-- The calls of the CPU engine and of the four steppers. -/
def isStepper : Event → Bool
  | .cpuStep | .videoStep | .inputStep | .storageStep | .rtcStep => true
  | _ => false

theorem isStepper_of_mem_tailEvents (frame cont masked : Bool) (d : Nat) :
    ∀ e ∈ tailEvents frame cont masked d, isStepper e = false :=
  match frame, cont, masked with
  | false, _, _ => by simp [tailEvents]
  | true, false, _ => by simp [tailEvents, isStepper]
  | true, true, true => by simp [tailEvents, isStepper]
  | true, true, false => by simp [tailEvents, isStepper]

theorem tailEvents_count_of_isStepper {e : Event} (he : isStepper e = true) (frame cont masked : Bool) (d : Nat) :
    (tailEvents frame cont masked d).count e = 0 :=
  List.count_eq_zero.mpr fun hmem => by
    rw [isStepper_of_mem_tailEvents _ _ _ _ e hmem] at he; cases he

/-- The four steppers of a cycle are called as often as the cycles put them out. -/
theorem execIter_count_of_isStepper {e : Event} (he : isStepper e = true) (hb : beforeCycles e = false) {n : Byte}
    {s t : State} (h : execIter n s = .next t) : t.out.count e = s.out.count e + n.toNat * cycleEvents.count e := by
  rw [execIter_count hb h, tailEvents_count_of_isStepper he, Nat.add_zero]

theorem finishRead_count_cpuStep (s : State) (v : Byte) :
    (s.finishRead v).out.count .cpuStep = s.out.count .cpuStep :=
  List.count_cons_of_ne (show Event.dout v ≠ .cpuStep from nofun)

/-- The bus operations of an instruction do not call the CPU engine. -/
theorem runBus_count_cpuStep {os : List BusOp} {s t : State} (h : runBus os s = .next t) :
    t.out.count .cpuStep = s.out.count .cpuStep := by
  refine runBus_keeps (P := fun u => u.out.count .cpuStep = s.out.count .cpuStep) h (fun o _ u v huv hu => ?_) rfl
  rw [← hu]
  cases o with
  | din b => cases huv; rw [State.push_out]
  | rd => rcases busRead_next huv with ⟨-, rfl⟩ | ⟨-, -, rfl⟩ <;> exact finishRead_count_cpuStep _ _
  | wr => obtain ⟨rfl, -⟩ := busWrite_next huv; rw [performWrite_out]

theorem nativeCalls_count_cpuStep (s : State) : (nativeCalls s).count .cpuStep = 0 := by
  unfold nativeCalls
  split_ifs <;> rfl

/-- Before its bus operations an iteration calls the CPU engine once. -/
theorem beforeBus_count_cpuStep (n : Nat) (s : State) :
    (beforeBus n s).out.count .cpuStep = s.out.count .cpuStep + 1 := by
  have hout : (beforeBus n s).out = .cpuStep :: (nativeCalls s ++ s.out) :=
    congrArg (List.cons Event.cpuStep) (trapCheck_out s)
  rw [hout, List.count_cons_self, List.count_append, nativeCalls_count_cpuStep, Nat.zero_add]

/-- Settles O50: each cycle calls each stepper once, and `Cpu.step()` is called once, before the cycles. -/
theorem fanOutExactlyN : Obligations.FanOutExactlyN := by
  intro n s t h
  refine ⟨?_, ?_, ?_, ?_, ?_⟩
  · rw [execIter_count_of_isStepper rfl rfl h]; simp [cycleEvents]
  · rw [execIter_count_of_isStepper rfl rfl h]; simp [cycleEvents]
  · rw [execIter_count_of_isStepper rfl rfl h]; simp [cycleEvents]
  · rw [execIter_count_of_isStepper rfl rfl h]; simp [cycleEvents]
  · obtain ⟨u, hu, hout, -⟩ := execIter_out h
    rw [cpuStep_eq_runBus] at hu
    rw [hout, List.count_append, List.count_append, tailEvents_count_of_isStepper rfl, runBus_count_cpuStep hu,
      beforeBus_count_cpuStep]
    simp [List.count_flatten, cycleEvents]

end Sys2Proof.Proofs
end

section
/-! The register boundary, further (43_rtc_registers.md R191 to R214; 30_encoding.md R100 to R102; decisions D7, D13
and D16): the stores in plain arithmetic, reads after writes, and writes that lack a byte. A write that lacks its data
is the same write on a state that holds the drawn byte, because no store looks at the buffer. -/

namespace Sys2Proof.Proofs

open Sys2Proof.Machine Sys2Proof.Slice0

/-! ## BCD -/

theorem digits_bcdByte {v : Nat} (h : v ≤ 159) : digits (bcdByte v) = v := digits_of_bcd (bcdByte_toNat h)

/-- A byte of two decimal digits is the BCD of their value. -/
theorem bcdByte_digits {b : Byte} (hlow : b.toNat % 16 ≤ 9) : bcdByte (digits b) = b := by
  have := b.isLt
  refine BitVec.eq_of_toNat_eq ?_
  rw [bcdByte, digits, BitVec.toNat_ofNat]; omega

/-- Settles O23: tens times ten plus units below ten is a number of two digits. -/
theorem bcdRoundTrips : Obligations.BcdRoundTrips := by
  refine ⟨fun v hv => ?_, fun b _ hlow => ?_, fun b => ?_⟩
  · rw [bcdDec_eq_digits, bcdEnc_eq_bcdByte, digits_bcdByte (by omega)]
  · rw [bcdDec_eq_digits, bcdEnc_eq_bcdByte, bcdByte_digits hlow]
  · have := b.isLt
    rw [bcdDec_eq_digits, digits]; omega

/-! ## Reads -/

/-- Settles O6, by the two policies. -/
theorem rdWithoutPointer : Obligations.RdWithoutPointer := by
  intro s hempty
  have hno : ¬ 1 ≤ s.txlen := by omega
  refine ⟨fun hcfg => busRead_of_refuse hcfg hno, fun hcfg => ?_⟩
  have hrd : s.busRead = .next (s.drawByte.2.finishRead s.drawByte.1) := by rw [State.busRead, if_neg hno, hcfg]
  refine hrd.trans (congrArg Host.Outcome.next ?_)
  rw [State.finishRead, State.endTxn, ← hempty]
  rfl

/-- The byte of an hour in 24-hour and in 12-hour mode. -/
def hourBytes (hr : Nat) : Byte × Byte :=
  (bcdEnc hr, trunc8 (0x40 ||| flagAt (isPm hr) 5 ||| (bcdEnc (hour12 hr)).toNat))

theorem readHour_eq (s : State) :
    readHour s = if s.h24 then (hourBytes s.cal.hr.toNat).1 else (hourBytes s.cal.hr.toNat).2 := rfl

/-- The hour table, row by row. -/
theorem hourTable_eq : hourTable = (List.range 24).map hourBytes := by decide

/-- Settles O12: each row of the table holds the two bytes of its hour. -/
theorem rdHourTable : Obligations.RdHourTable := by
  intro s row hrow
  rw [hourTable_eq, List.getElem?_map, Option.map_eq_some_iff] at hrow
  obtain ⟨hr, hget, rfl⟩ := hrow
  obtain ⟨_, rfl⟩ := List.getElem?_eq_some_iff.mp hget
  rw [List.getElem_range]
  exact congrArg (fun v => Host.Outcome.next (afterRead s v)) (readHour_eq s)

/-! ## Writes -/

theorem and_0x3F_toNat (b : Byte) : (b &&& 0x3F).toNat = b.toNat % 64 := Nat.and_two_pow_sub_one_eq_mod b.toNat 6

theorem writeMin_eq (d : Byte) (s : State) :
    writeMin d s = { s with cal := { s.cal with min := BitVec.ofNat 8 (digits d) } } := by
  rw [writeMin, bcdDec_eq_digits]; rfl

theorem writeDay_eq (d : Byte) (s : State) :
    writeDay d s = { s with cal := { s.cal with day := BitVec.ofNat 8 (digits d) } } := by
  rw [writeDay, bcdDec_eq_digits]; rfl

theorem writeMonth_eq (d : Byte) (s : State) :
    writeMonth d s = { s with cal := { s.cal with mon := BitVec.ofNat 8 (digits (d &&& 0x1F)) } } := by
  rw [writeMonth, bcdDec_eq_digits]; rfl

theorem writeYear_eq (d : Byte) (s : State) :
    writeYear d s = { s with cal := { s.cal with yr := BitVec.ofNat 8 (digits d) } } := by
  rw [writeYear, bcdDec_eq_digits]; rfl

theorem hourFrom12_eq (d : Byte) :
    hourFrom12 d =
      (if digits (d &&& 0x1F) = 12 then 0 else digits (d &&& 0x1F)) + (if d.getLsbD 5 then 12 else 0) := by
  rw [hourFrom12, bcdDec_eq_digits]
  exact (apply_ite (_ + ·) _ 12 0).symm

theorem writeHour_eq_24 {d : Byte} (h : d.getLsbD 6 = false) (s : State) :
    writeHour d s = { s with h24 := true, cal := { s.cal with hr := BitVec.ofNat 8 (digits (d &&& 0x3F)) } } := by
  rw [writeHour_24 h, writeHour24, bcdDec_eq_digits]; rfl

theorem writeHour_eq_12 {d : Byte} (h : d.getLsbD 6 = true) (s : State) :
    writeHour d s = { s with h24 := false, cal := { s.cal with hr := BitVec.ofNat 8 (hourFrom12 d) } } := by
  rw [writeHour_12 h]; rfl

theorem low3_toNat (d : Byte) : (low3 d).toNat = d.toNat % 8 := by
  rw [low3, BitVec.extractLsb'_toNat, Nat.shiftRight_zero]

/-- With two bytes held, a write sub-operation is its store of `buf[1]`, and the transaction ends. -/
theorem next_finishWrite {s u : State} {store : Byte → State → State} (hdata : 2 ≤ s.txlen)
    (h : store s.buf[1] s = u) :
    (.next (s.finishWrite store) : Result) = .next u.endTxn := by
  rw [finishWrite_of_two hdata, h]

/-- Settles O17: the four stores with their masks. -/
theorem wrMinDayMonthYearStore : Obligations.WrMinDayMonthYearStore := by
  rintro s _ hdata rfl
  exact ⟨next_finishWrite hdata (writeMin_eq _ s), next_finishWrite hdata (writeDay_eq _ s),
    next_finishWrite hdata (writeMonth_eq _ s), next_finishWrite hdata (writeYear_eq _ s)⟩

/-- Settles O18: the two forms of the data byte by its bit 6. -/
theorem wrHourStores : Obligations.WrHourStores := by
  rintro s _ _ hdata rfl
  refine ⟨?_, ?_⟩
  · rintro h24 rfl
    exact next_finishWrite hdata (writeHour_eq_24 h24 s)
  · rintro h12 rfl
    rw [← hourFrom12_eq]
    exact next_finishWrite hdata (writeHour_eq_12 h12 s)

/-- Settles O19: the weekday is the byte's low three bits. -/
theorem wrWkdayStores : Obligations.WrWkdayStores := by
  rintro s _ hdata rfl
  exact ⟨_, next_finishWrite (store := writeWkday) hdata rfl, rfl, low3_toNat _⟩

/-- Settles O20: one store below 64 into NVRAM. -/
theorem wrNvStores : Obligations.WrNvStores := by
  rintro k s _ hwf hdata rfl
  exact ⟨_, next_finishWrite (store := writeNv k.toNat) hdata rfl, rfl,
    fun j => Memory.read_write hwf k.toNat j s.buf[1], Memory.wf_write hwf k.toNat s.buf[1]⟩

/-! ## Writes that lack a byte -/

/-- The store neither looks at the buffer nor changes it. -/
def BlindToBuffer (store : Byte → State → State) : Prop :=
  ∀ (d : Byte) (u : State) (b : Vector Byte txCap) (k : Nat),
    store d { u with buf := b, txlen := k } = { store d u with buf := b, txlen := k }

theorem writeHour_blind : BlindToBuffer writeHour := by
  intro d u b k
  unfold writeHour
  split <;> rfl

/-- With its data missing, a write is that of the state that holds the drawn byte, but for the buffer's bytes. -/
theorem finishWrite_of_missing {store : Byte → State → State} (hstore : BlindToBuffer store) {s : State}
    (hmissing : s.txlen < 2) : s.finishWrite store = { (withDrawnData s).finishWrite store with buf := s.buf } := by
  have hdrawn : (withDrawnData s).buf[1] = Config.draw s.draws := by simp [withDrawnData, txCap]
  have hbuf := hstore (Config.draw s.draws) s.drawByte.2 s.buf s.txlen
  have hheld := hstore (Config.draw s.draws) s.drawByte.2 (withDrawnData s).buf (withDrawnData s).txlen
  rw [finishWrite_of_two (s := withDrawnData s) (le_refl 2), hdrawn,
    show withDrawnData s =
      { s.drawByte.2 with buf := (withDrawnData s).buf, txlen := (withDrawnData s).txlen } from rfl,
    hheld, State.finishWrite, writeData_of_missing (Nat.not_le.mpr hmissing)]
  exact congrArg State.endTxn hbuf

/-- Settles O22: no store of the ten looks at the buffer. -/
theorem writeSubsDrawMissingData : Obligations.WriteSubsDrawMissingData := by
  intro i s hsub hmissing
  have hwrite {store : Byte → State → State} (hstore : BlindToBuffer store)
      (hexec : ∀ u, exec i u = .next (u.finishWrite store)) :
      ∃ t, exec i (withDrawnData s) = .next t ∧ exec i s = .next { t with buf := s.buf } :=
    ⟨_, hexec _, (hexec s).trans (congrArg _ (finishWrite_of_missing hstore hmissing))⟩
  cases i with
  | wrHour => exact hwrite writeHour_blind fun _ => rfl
  | wrSec | wrMin | wrWkday | wrDay | wrMonth | wrYear | wrLow | wrNv | wrHigh =>
    exact hwrite (fun _ _ _ _ => rfl) fun _ => rfl
  | _ => cases hsub

theorem performWrite_draws {s : State} (h : s.txlen < 2) : s.performWrite.draws = s.draws + (2 - s.txlen) := by
  have hsel : s.selector.2.draws = s.draws + (1 - s.txlen) := by
    by_cases hone : 1 ≤ s.txlen
    · rw [selector_of_one hone]; show s.draws = _; omega
    · rw [selector_of_empty hone]; show s.draws + 1 = _; omega
  have hmissing : ¬ 2 ≤ s.selector.2.txlen := by rw [State.selector_txlen]; omega
  have hdata : s.selector.2.writeData.2.draws = s.selector.2.draws + 1 :=
    congrArg (fun p => p.2.draws) (writeData_of_missing hmissing)
  rw [State.performWrite, State.finishWrite, State.endTxn_draws, writeReg_draws, hdata, hsel]
  omega

/-- Settles O8: the selector is held or drawn before the data is. -/
theorem wrWithoutData : Obligations.WrWithoutData := by
  intro s hmissing
  have hno : ¬ 2 ≤ s.txlen := by omega
  refine ⟨fun hcfg => busWrite_of_refuse hcfg hno, fun hcfg => ?_⟩
  have hwr : s.busWrite = .next s.performWrite := by rw [State.busWrite, if_neg hno, hcfg]
  refine ⟨s.performWrite, hwr, performWrite_txlen s, performWrite_buf s, performWrite_draws hmissing,
    fun hone c i hdec => ?_, fun hnone c i hdec => ?_⟩
  · obtain rfl : decodeWriteSel s.buf[0] = i := Decoded.op.inj hdec
    rw [exec_decodeWriteSel, performWrite_of_selector hone.ge]
  · obtain rfl : decodeWriteSel (Config.draw s.draws) = i := Decoded.op.inj hdec
    rw [exec_decodeWriteSel, State.performWrite, selector_of_empty (by omega)]
    rfl

/-! ## Reads after writes -/

theorem getLsbD_toNat (b : Byte) (i : Nat) : (b.getLsbD i).toNat = b.toNat / 2 ^ i % 2 := Nat.toNat_testBit b.toNat i

theorem eq_of_finishRead_eq {s : State} {v w : Byte} (h : (.next (s.finishRead v) : Result) = .next (afterRead s w)) :
    v = w :=
  Event.dout.inj (List.cons.inj (congrArg State.out (Host.Outcome.next.inj h))).1

/-- The hour shown in 12-hour form and the PM flag make the hour again. -/
theorem hour_of_hour12_and_pm : ∀ hr ≤ 23,
    (if (if hr % 12 = 0 then 12 else hr % 12) = 12 then 0 else (if hr % 12 = 0 then 12 else hr % 12)) +
      (if decide (12 ≤ hr) then 12 else 0) = hr := by
  decide

/-- A `WR.HOUR` of the byte that shows an hour of the day stores that hour and the mode it is shown in. -/
theorem writeHour_readHour {s : State} (h : s.cal.hr.toNat ≤ 23) (t : State) :
    writeHour (readHour s) t = { t with h24 := s.h24, cal := { t.cal with hr := s.cal.hr } } := by
  have hhr : BitVec.ofNat 8 s.cal.hr.toNat = s.cal.hr := BitVec.ofNat_toNat ..
  cases hmode : s.h24 with
  | true =>
    have hv := bcdByte_toNat (v := s.cal.hr.toNat) (by omega)
    rw [← readHour_24 hmode] at hv
    have hdigits : digits (readHour s &&& 0x3F) = s.cal.hr.toNat := digits_of_bcd (by rw [and_0x3F_toNat]; omega)
    rw [writeHour_eq_24 (getLsbD_of_toNat_lt (by omega)), hdigits, hhr]
  | false =>
    obtain ⟨-, h12⟩ := rdHourReturns s
    obtain ⟨v, hv, -, hbit6, hpm, hlow⟩ := h12 hmode
    obtain rfl : readHour s = v := eq_of_finishRead_eq hv
    rw [writeHour_eq_12 hbit6, hourFrom12_eq, hlow, hpm, digits_bcdByte (by split <;> omega),
      hour_of_hour12_and_pm _ h, hhr]

/-- Settles O24: the byte read is the one that stores the same hour and mode. -/
theorem hourReadWriteSymmetric : Obligations.HourReadWriteSymmetric := by
  rintro s t u v hhr hrd hdata rfl hwr
  have hstore := writeHour_readHour hhr t
  rw [eq_of_finishRead_eq hrd] at hstore
  have hnext := next_finishWrite hdata.ge hstore
  obtain rfl := Host.Outcome.next.inj (hwr.symm.trans hnext)
  exact ⟨rfl, rfl⟩

/-- A write and then a read of the same selector puts out what the read makes of the stored register. -/
theorem execAll_write_read {w r : Instr} {store : Byte → State → State} {read : State → Byte}
    (hw : ∀ u, exec w u = .next (u.finishWrite store)) (hr : ∀ u, exec r u = .next (u.finishRead (read u)))
    {s : State} (hdata : 2 ≤ s.txlen) (hout : (store s.buf[1] s).out = s.out) {v : Byte}
    (hv : read (store s.buf[1] s).endTxn = v) : ∃ t, execAll [w, r] s = .next t ∧ t.out = .dout v :: s.out := by
  refine ⟨(store s.buf[1] s).endTxn.finishRead v, ?_, congrArg _ hout⟩
  simp only [execAll, hw, hr, finishWrite_of_two hdata, hv]

theorem readSec_writeSec {d : Byte} (hlow : d.toNat % 16 ≤ 9) (s : State) : readSec (writeSec d s).endTxn = d := by
  have hd := d.isLt
  have hdigits : digits (d &&& 0x7F) = d.toNat % 128 / 16 * 10 + d.toNat % 16 := by
    rw [digits, and_0x7F_toNat]; omega
  have hsec : (writeSec d s).endTxn.cal.sec.toNat = digits (d &&& 0x7F) := by
    rw [writeSec_eq]; exact byte_toNat (by omega)
  have hrun : (writeSec d s).endTxn.run.toNat = d.toNat / 2 ^ 7 % 2 := getLsbD_toNat d 7
  refine BitVec.eq_of_toNat_eq ?_
  rw [readSec_toNat (by omega), hrun, hsec, hdigits]
  omega

/-- A register that holds the digits of a byte reads as that byte. -/
theorem bcdEnc_digits {d : Byte} (hlow : d.toNat % 16 ≤ 9) : bcdEnc (BitVec.ofNat 8 (digits d)).toNat = d := by
  have hlt : digits d < 256 := by have := d.isLt; rw [digits]; omega
  rw [byte_toNat hlt, bcdEnc_eq_bcdByte, bcdByte_digits hlow]

theorem readMin_writeMin {d : Byte} (hlow : d.toNat % 16 ≤ 9) (s : State) : readMin (writeMin d s).endTxn = d := by
  rw [writeMin_eq]; exact bcdEnc_digits hlow

theorem readDay_writeDay {d : Byte} (hlow : d.toNat % 16 ≤ 9) (s : State) : readDay (writeDay d s).endTxn = d := by
  rw [writeDay_eq]; exact bcdEnc_digits hlow

theorem readYear_writeYear {d : Byte} (hlow : d.toNat % 16 ≤ 9) (s : State) : readYear (writeYear d s).endTxn = d := by
  rw [writeYear_eq]; exact bcdEnc_digits hlow

theorem ofNat_toNat_or (b : Byte) (k : Nat) : BitVec.ofNat 8 (b.toNat ||| k) = b ||| BitVec.ofNat 8 k := by
  rw [BitVec.ofNat_or, BitVec.ofNat_toNat, BitVec.setWidth_eq]

theorem readMonth_writeMonth {d : Byte} (hlow : d.toNat % 16 ≤ 9) (s : State) :
    readMonth (writeMonth d s).endTxn = (d &&& 0x1F) ||| (if s.cal.yr.toNat % 4 = 0 then 0x20 else 0) := by
  have hlow5 : (d &&& 0x1F).toNat % 16 ≤ 9 := by rw [and_0x1F_toNat]; omega
  have hmon : bcdByte (writeMonth d s).endTxn.cal.mon.toNat = d &&& 0x1F := by
    rw [writeMonth_eq, ← bcdEnc_eq_bcdByte]; exact bcdEnc_digits hlow5
  rw [readMonth_eq, hmon, ofNat_toNat_or]
  exact congrArg _ (apply_ite (BitVec.ofNat 8) _ 32 0)

theorem ofNat_flagAt (f : Bool) (i : Nat) :
    BitVec.ofNat 8 (flagAt f i) = if f then BitVec.ofNat 8 (1 <<< i) else 0 := by
  cases f with
  | true => rfl
  | false => rw [flagAt_eq, Bool.toNat_false, Nat.zero_mul]; rfl

theorem readWkday_writeWkday (d : Byte) (s : State) :
    readWkday (writeWkday d s).endTxn =
      (d &&& 0x07) ||| (if d.getLsbD 5 then 0x08 else 0) ||| (if s.run then 0x20 else 0) := by
  have hwkd : BitVec.ofNat 8 (low3 d).toNat = d &&& 0x07 := by
    refine BitVec.eq_of_toNat_eq ?_
    rw [low3_toNat, byte_toNat (by omega)]
    exact (Nat.and_two_pow_sub_one_eq_mod d.toNat 3).symm
  show BitVec.ofNat 8 ((low3 d).toNat ||| flagAt (d.getLsbD 5) 3 ||| flagAt s.run 5) = _
  rw [BitVec.ofNat_or, BitVec.ofNat_or, hwkd, ofNat_flagAt, ofNat_flagAt]
  rfl

/-- A byte of the hour table shows an hour of the day in one of the two modes. -/
theorem exists_readHour_of_mem_hourTable {row : Byte × Byte} {d : Byte} (hrow : row ∈ hourTable)
    (hd : d = row.1 ∨ d = row.2) (s : State) :
    ∃ hr mode, hr ≤ 23 ∧ d = readHour { s with h24 := mode, cal := { s.cal with hr := BitVec.ofNat 8 hr } } := by
  rw [hourTable_eq, List.mem_map] at hrow
  obtain ⟨hr, hmem, rfl⟩ := hrow
  have hlt : hr < 24 := List.mem_range.mp hmem
  have hbyte : (BitVec.ofNat 8 hr).toNat = hr := byte_toNat (by omega)
  rcases hd with rfl | rfl
  · exact ⟨hr, true, by omega, by rw [readHour_eq, hbyte]; rfl⟩
  · exact ⟨hr, false, by omega, by rw [readHour_eq, hbyte]; rfl⟩

/-- A byte of the hour table reads back. -/
theorem readHour_writeHour {row : Byte × Byte} {d : Byte} (hrow : row ∈ hourTable) (hd : d = row.1 ∨ d = row.2)
    (s : State) : readHour (writeHour d s).endTxn = d := by
  obtain ⟨hr, mode, hle, hread⟩ := exists_readHour_of_mem_hourTable hrow hd s
  have hbyte : (BitVec.ofNat 8 hr).toNat = hr := byte_toNat (by omega)
  have hstore := writeHour_readHour (s := { s with h24 := mode, cal := { s.cal with hr := BitVec.ofNat 8 hr } })
    (hbyte.trans_le hle) s
  rw [← hread] at hstore
  rw [hstore]
  exact hread.symm

/-- Settles O25, register by register. -/
theorem readAfterWrite : Obligations.ReadAfterWrite := by
  rintro s _ hdata rfl
  refine ⟨fun hlow => ?_, fun hlow _ => ⟨?_, ?_, ?_⟩, fun ⟨row, hrow, hd⟩ => ?_, fun hlow => ?_, ?_⟩
  · exact execAll_write_read (fun _ => rfl) (fun _ => rfl) hdata rfl (readSec_writeSec hlow s)
  · exact execAll_write_read (fun _ => rfl) (fun _ => rfl) hdata rfl (readMin_writeMin hlow s)
  · exact execAll_write_read (fun _ => rfl) (fun _ => rfl) hdata rfl (readDay_writeDay hlow s)
  · exact execAll_write_read (fun _ => rfl) (fun _ => rfl) hdata rfl (readYear_writeYear hlow s)
  · exact execAll_write_read (fun _ => rfl) (fun _ => rfl) hdata (writeHour_out _ s) (readHour_writeHour hrow hd s)
  · exact execAll_write_read (fun _ => rfl) (fun _ => rfl) hdata rfl (readMonth_writeMonth hlow s)
  · exact execAll_write_read (fun _ => rfl) (fun _ => rfl) hdata rfl (readWkday_writeWkday _ s)

end Sys2Proof.Proofs
end

section
/-! `FLUSH` and the two reset events (43_rtc_registers.md R215; 10_state.md R40 to R44; 70_reset_and_hazards.md R290,
R291; log entry 18 for the external CPU). -/

namespace Sys2Proof.Proofs

open Sys2Proof.Machine Sys2Proof.Slice0

/-- Settles O27: the effect of the CPU engine's own reset is the only one either reset leaves to a collaborator. -/
theorem idleFlushRst : Obligations.IdleFlushRst := by
  refine fun s => ⟨rfl, rfl, ?_⟩
  show execRst s = _
  rw [execRst, applyCpu_eq_afterEffect]
  rfl

theorem initialCalendar_of_hostTime {s : State} (h : s.cfg.initSrc = .hostTime) :
    s.initialCalendar = s.answers.hostTime := by rw [State.initialCalendar, h]

theorem initialCalendar_of_fixedEpoch {s : State} (h : s.cfg.initSrc = .fixedEpoch) :
    s.initialCalendar = s.cfg.epoch := by rw [State.initialCalendar, h]

theorem read_initialNvram (s : State) {k : Nat} (h : k < nvSize) :
    (Memory.ofBytes s.initialNvram.toList).read k = s.initialNvram[k] := by
  rw [Memory.read_ofBytes, Vector.length_toList, if_pos h]
  simp [h]

/-- Settles O28: the calendar is valid by its type, NVRAM is an image of 64 bytes, the buffer 16 drawn ones. -/
theorem porInitialises : Obligations.PorInitialises := by
  intro s
  obtain ⟨hwf, hbelow⟩ := initialNvram_ok s
  refine ⟨_, rfl, s.initialCalendar.property, fun h => congrArg Subtype.val (initialCalendar_of_hostTime h),
    fun h => congrArg Subtype.val (initialCalendar_of_fixedEpoch h), hwf, hbelow, fun k h => read_initialNvram s h,
    fun k h => ?_, ?_⟩
  · simp [freeBuffer]
  · rw [applyCpu_eq_afterEffect]; rfl

theorem reset_nvram_below : State.reset.nvram.below nvSize = true := by decide

/-- Settles O29: `State.reset` is built from the values `POR` loads, and its memories are canonical. -/
theorem resetIsPowerOn : Obligations.ResetIsPowerOn := by
  obtain ⟨hnvram, hmem, hrom⟩ := reset_memories_wf
  refine ⟨⟨_, rfl, rfl⟩, ⟨⟨hnvram, reset_nvram_below, hmem, rfl, hrom⟩, Nat.zero_le _⟩, ?_, ?_, ?_, rfl⟩
  · show 0 < 8000000
    decide
  · exact Config.chosenEpoch.property
  · decide

end Sys2Proof.Proofs
end
